-- ==== Sys2Proof/Word.lean ====
section
/-! DEFINITION. The values this hardware gives the sizes and widths of R7, and the types that take them as arguments: command
and response words (R60), results (R62), table indices and tables (R41, R28). Bytes (R23, R27) and steps (R20). An argument
that is not written has this hardware's value (entry 19). -/

namespace Sys2Proof

/-! ### The sizes and widths of R7, with the values of this hardware (entry 19) -/

/-- `NSTEP`, the number of table entries (R7). -/
@[simp] abbrev Config.nStep : Nat := 64
/-- `W`, the width of a coefficient, input and output of QUANTIZE (R7). -/
@[simp] abbrev Config.w : Nat := 16
/-- `QW`, the width of the quality operand (R7). -/
@[simp] abbrev Config.qw : Nat := 16
/-- `CMD_W`, the width of a command word (R7). -/
@[simp] abbrev Config.cmdW : Nat := 32
/-- `RSP_W`, the width of a response word (R7). -/
@[simp] abbrev Config.rspW : Nat := 32

/-! ### The types -/

/-- A command word of CMD_W bits, `CMD[31:0]` (R7, R60). -/
abbrev Word (cmdW : Nat := Config.cmdW) := BitVec cmdW

/-- A response word of RSP_W bits, `RSP[31:0]` (R7, R60). -/
abbrev Response (rspW : Nat := Config.rspW) := BitVec rspW

/-- An unsigned byte: a custom sensitivity (R23) or a reference table entry (R27). -/
abbrev Byte := BitVec 8

/-- One stored quantization step, premultiplied by 8, 11 bits wide (R20). -/
abbrev StepBits := BitVec 11

/-- The result field of a response, W bits, as wide as a coefficient: `RSP[15:0]` (R7, R62). -/
abbrev Result (w : Nat := Config.w) := BitVec w

/-- An index of a table of NSTEP entries (R7). The 6-bit INDEX field names one of the 64 and every value is valid (R41,
R63). -/
abbrev Index (nStep : Nat := Config.nStep) := Fin nStep

/-- One of the block's tables of NSTEP entries (R7); entry `i` of all of them correspond (R28). -/
abbrev Table (α : Type) (nStep : Nat := Config.nStep) := Vector α nStep

end Sys2Proof
end

