-- ==== Sys2Proof/Config.lean ====
section
/-! DEFINITION. The implementation parameters of R7 that the machine reads from its state: the numbers of the arithmetic,
the two reference tables, the response buffer's depth, the latencies. The default reference tables of R27, and the free
value of STEP after a reset. The sizes and widths of R7 are arguments of types and functions; their values stand in Word.lean
(entry 19). -/

namespace Sys2Proof.Config

/-- The numbers of the arithmetic that R7 makes parameters. -/
structure Numbers where
  /-- `PREMUL`, the premultiply factor. -/
  premul : Int
  /-- `QMIN`, lower bound of the quality clamp. -/
  qMin : Int
  /-- `QMAX`, upper bound of the quality clamp. -/
  qMax : Int
  /-- `VMIN`, lower bound of the scaled unscaled step. -/
  vMin : Int
  /-- `VMAX`, upper bound of the scaled unscaled step. -/
  vMax : Int
  deriving DecidableEq, Repr

/-- The numbers this hardware takes: R7's column `value for this hardware`. -/
def qtb1 : Numbers := { premul := 8, qMin := 1, qMax := 100, vMin := 1, vMax := 255 }

/-- The parameters of R7: NSTEP, W, QW, CMD_W and RSP_W are arguments of the type, the others its fields. They are fixed at
the instantiation of a block: no command and no reset changes them (R27, R31, R141, R152). The model carries them in
State and takes each from there, so that what does not depend on a parameter is stated for every value of it (entries 3
to 5 and 19). -/
structure Params (nStep : Nat := Config.nStep) (w : Nat := Config.w) (qw : Nat := Config.qw) (cmdW : Nat := Config.cmdW)
    (rspW : Nat := Config.rspW) where
  /-- `PREMUL`, `QMIN`, `QMAX`, `VMIN`, `VMAX` (R7). -/
  numbers : Numbers
  /-- `LUMA_REF`, the luma reference table (R27). -/
  lumaRef : Table Byte nStep
  /-- `CHROMA_REF`, the chroma reference table (R27). -/
  chromaRef : Table Byte nStep
  /-- `RSP_DEPTH`, how many responses the block can hold (R150). -/
  rspDepth : Nat
  /-- `LAT_OP`, the latency bound of every command but an executing BUILD, in edges (R148). -/
  latOp : Nat
  /-- `LAT_BUILD`, the latency bound of an executing BUILD, in edges (R148). -/
  latBuild : Nat
  deriving DecidableEq, Repr

/-- What R7 and R27 demand of the parameters: the numbers this hardware takes, reference entries in 1..255 (the width gives
the upper bound), a response buffer of at least one entry, and latencies of at least one edge (the last is the model's,
entry 5). -/
structure Params.WF {nStep w qw cmdW rspW : Nat} (p : Params nStep w qw cmdW rspW) : Prop where
  numbers : p.numbers = qtb1
  luma : ∀ i : Index nStep, p.lumaRef[i] ≠ 0
  chroma : ∀ i : Index nStep, p.chromaRef[i] ≠ 0
  depth : 1 ≤ p.rspDepth
  latOp : 1 ≤ p.latOp
  latBuild : 1 ≤ p.latBuild

/-- The rows of the default LUMA_REF (R27; the values are PRESUMED, entry 3). -/
def lumaRows : List (List Nat) :=
  [[16, 11, 10, 16, 24, 40, 51, 61],
   [12, 12, 14, 19, 26, 58, 60, 55],
   [14, 13, 16, 24, 40, 57, 69, 56],
   [14, 17, 22, 29, 51, 87, 80, 62],
   [18, 22, 37, 56, 68, 109, 103, 77],
   [24, 35, 55, 64, 81, 104, 113, 92],
   [49, 64, 78, 87, 103, 121, 120, 101],
   [72, 92, 95, 98, 112, 100, 103, 99]]

/-- The rows of the default CHROMA_REF (R27; the values are PRESUMED, entry 3). -/
def chromaRows : List (List Nat) :=
  [[17, 18, 24, 47, 99, 99, 99, 99],
   [18, 21, 26, 66, 99, 99, 99, 99],
   [24, 26, 56, 99, 99, 99, 99, 99],
   [47, 66, 99, 99, 99, 99, 99, 99]] ++
  List.replicate 4 (List.replicate 8 99)

/-- A table from its rows: index `i = 8*row + column` (R27). -/
def tableOfRows (rows : List (List Nat)) (nStep : Nat := Config.nStep) : Table Byte nStep :=
  Vector.ofFn fun i => BitVec.ofNat 8 ((rows.getD (i.val / 8) []).getD (i.val % 8) 0)

/-- The default LUMA_REF of R27 (PRESUMED, entry 3). -/
def defaultLuma : Table Byte := tableOfRows lumaRows

/-- The default CHROMA_REF of R27 (PRESUMED, entry 3). -/
def defaultChroma : Table Byte := tableOfRows chromaRows

/-- The parameters that State.reset carries: the numbers this hardware takes (R7), the default tables of R27 (PRESUMED,
entry 3), and for the OPEN numbers the least value the model admits (DESIGN CHOICE, entries 4 and 5). No statement rests
on the PRESUMED values or on the OPEN ones. -/
def default : Params :=
  { numbers := qtb1, lumaRef := defaultLuma, chromaRef := defaultChroma, rspDepth := 1, latOp := 1, latBuild := 1 }

/-- The free value of `STEP[i]` after the n-th reset edge: R141 leaves STEP unspecified, so nothing constrains it
(entry 2). -/
opaque freeStep {nStep : Nat} : Nat → Index nStep → StepBits

end Sys2Proof.Config
end

