-- ==== Sys2Proof/Machine/Arith.lean ====
section
/-! DEFINITION. The arithmetic of the table's construction (R81 to R84) and of the coefficient division (R105), on
mathematical integers (R9), over the numbers R7 makes parameters: every value is exact, and nothing is narrowed here. -/

namespace Sys2Proof.Machine

/-- `clamp(lo, hi, x) = max(lo, min(hi, x))` (R9). -/
def clamp (lo hi x : Int) : Int := max lo (min hi x)

/-- The quality clamp, `clamp(QMIN, QMAX, q)` (R81). -/
def clampQ (n : Config.Numbers) (q : Int) : Int := clamp n.qMin n.qMax q

/-- The scale factor of a clamped quality (R82). -/
def scale (qc : Int) : Int := if qc < 50 then 5000 / qc else 200 - 2 * qc

/-- The scaled unscaled step of a reference byte `v` at a scale `s`, clamped to VMIN..VMAX (R83). -/
def newval (n : Config.Numbers) (v s : Int) : Int := clamp n.vMin n.vMax ((v * s + 50) / 100)

/-- The unscaled step of a custom byte: a zero is floored to 1 (R84). -/
def floorOne (b : Int) : Int := max 1 b

/-- The stored step of an unscaled step: `k << 3`, which is `k * 8`, PREMUL being 8 (R9, R83, R84). -/
def premultiply (n : Config.Numbers) (k : Int) : Int := k * n.premul

/-- The unscaled step of a stored one: `q >> 3`, which is `q / 8`, PREMUL being 8 (R9, R100). -/
def unscaled (n : Config.Numbers) (q : Int) : Int := q / n.premul

/-- The rounded quotient of QUANTIZE: the magnitude plus half the step, divided truncating, with the sign put back, so
that ties go away from zero (R105). -/
def roundedQuotient (x q : Int) : Int :=
  let m := ((x.natAbs : Int) + q / 2) / q
  if x < 0 then -m else m

end Sys2Proof.Machine
end

