-- ==== Sys2Proof/Syntax.lean ====
section
/-! DEFINITION. The syntax: the five commands of the opcode map (R69), their opcodes, and the lines of the assembler
(R71, R72). -/

namespace Sys2Proof

/-- The channel kind, the `LUMA` bit of BUILD_DEFAULT: 1 selects LUMA_REF, 0 selects CHROMA_REF (R64). -/
inductive Channel where
  | luma
  | chroma
  deriving DecidableEq, Repr

/-- The commands, one constructor per row of the opcode table. QUALITY and VALUE are signed numbers (R65); that they fit
their widths is WellFormed's check. The table has NSTEP entries (R7). -/
inductive Instr (nStep : Nat := Config.nStep) where
  /-- LOAD_CUSTOM INDEX, BYTE (R85). -/
  | loadCustom (idx : Index nStep) (byte : Byte)
  /-- BUILD_DEFAULT LUMA, QUALITY (R90). -/
  | buildDefault (channel : Channel) (quality : Int)
  /-- BUILD_CUSTOM (R95). -/
  | buildCustom
  /-- GET INDEX (R100). -/
  | get (idx : Index nStep)
  /-- QUANTIZE INDEX, VALUE (R105). -/
  | quantize (idx : Index nStep) (value : Int)
  deriving DecidableEq, Repr

/-- The defined opcodes of the opcode map (R69). -/
inductive Opcode where
  | loadCustom
  | buildDefault
  | buildCustom
  | get
  | quantize
  deriving DecidableEq, Repr

/-- The opcode of a command. -/
def Instr.opcode {nStep : Nat} : Instr nStep → Opcode
  | .loadCustom _ _ => .loadCustom
  | .buildDefault _ _ => .buildDefault
  | .buildCustom => .buildCustom
  | .get _ => .get
  | .quantize _ _ => .quantize

/-- One line of assembler source: the commands of R71 with operands as written (any integer), a raw word, and the
pseudo-commands of R72. -/
inductive AsmLine where
  /-- `LOAD_CUSTOM idx, byte` -/
  | loadCustom (idx byte : Int)
  /-- `BUILD_DEFAULT luma, q` or `BUILD_DEFAULT chroma, q` -/
  | buildDefault (channel : Channel) (quality : Int)
  /-- `BUILD_CUSTOM` -/
  | buildCustom
  /-- `GET idx` -/
  | get (idx : Int)
  /-- `QUANTIZE idx, v` -/
  | quantize (idx value : Int)
  /-- `.word 0xXXXXXXXX` -/
  | word (bits : Int)
  /-- `LOAD_CUSTOM_TABLE b0, ..., b63` (R72) -/
  | loadCustomTable (bytes : List Int)
  /-- `BUILD_CUSTOM_TABLE b0, ..., b63` (R72) -/
  | buildCustomTable (bytes : List Int)
  /-- `GET_TABLE` (R72) -/
  | getTable
  deriving DecidableEq, Repr

end Sys2Proof
end

