-- ==== Sys2Proof/WellFormed.lean ====
section
/-! DEFINITION. Which commands and which assembler lines are well formed: the operand ranges of R71. -/

namespace Sys2Proof

/-- `x` is one of the first `n` numbers, 0..n-1. -/
def isBelow (n : Nat) (x : Int) : Bool := decide (0 ≤ x ∧ x < n)

/-- `x` is an unsigned number of `n` bits, `un` (R8). -/
def fitsUnsigned (n : Nat) (x : Int) : Bool := isBelow (2 ^ n) x

/-- `x` is a two's-complement number of `n` bits, `sn` (R8). -/
def fitsSigned (n : Nat) (x : Int) : Bool := decide (-((2 ^ (n - 1) : Nat) : Int) ≤ x ∧ x < (2 ^ (n - 1) : Nat))

/-- A command is well formed when its operands are in the ranges of R71. Index and byte are so by their types; a quality
must fit QW bits signed and a coefficient W bits signed (R7, R65; a wider coefficient is outside W = 16, I11). -/
def Instr.wf {nStep : Nat} (i : Instr nStep) (qw : Nat := Config.qw) (w : Nat := Config.w) : Bool :=
  match i with
  | .loadCustom _ _ => true
  | .buildDefault _ quality => fitsSigned qw quality
  | .buildCustom => true
  | .get _ => true
  | .quantize _ value => fitsSigned w value

/-- The operand ranges of an assembler line (R71), which an assembler refuses to go beyond; a table of R72 has a
byte for every entry. -/
def AsmLine.wf (l : AsmLine) (nStep : Nat := Config.nStep) (cmdW : Nat := Config.cmdW) (qw : Nat := Config.qw)
    (w : Nat := Config.w) : Bool :=
  match l with
  | .loadCustom idx byte => isBelow nStep idx && fitsUnsigned 8 byte
  | .buildDefault _ quality => fitsSigned qw quality
  | .buildCustom => true
  | .get idx => isBelow nStep idx
  | .quantize idx value => isBelow nStep idx && fitsSigned w value
  | .word bits => fitsUnsigned cmdW bits
  | .loadCustomTable bytes => decide (bytes.length = nStep) && bytes.all (fitsUnsigned 8)
  | .buildCustomTable bytes => decide (bytes.length = nStep) && bytes.all (fitsUnsigned 8)
  | .getTable => true

end Sys2Proof
end

