-- ==== Sys2Proof/Decode.lean ====
section
/-! DEFINITION. The command decoder (R126, its first two checks), the encoder written from R71, the opcode map as match
and mask (R69), and the host's view of a table row's word. -/

namespace Sys2Proof

/-! ### Fields of a command word (R61) -/

/-- `OP = CMD[3:0]` (R61). -/
def opField {cmdW : Nat} (cmd : Word cmdW) : BitVec 4 := cmd.extractLsb' 0 4

/-- `INDEX = zext_6(CMD[9:4])`, an index of a table of NSTEP entries: with NSTEP = 64 every value of the field is one
(R41, R63). -/
def indexField {cmdW : Nat} (cmd : Word cmdW) (nStep : Nat := Config.nStep) [NeZero nStep] : Index nStep :=
  Fin.ofNat nStep (cmd.extractLsb' 4 6).toNat

/-- `BYTE = zext_8(CMD[23:16])` (R64). -/
def byteField {cmdW : Nat} (cmd : Word cmdW) : Byte := cmd.extractLsb' 16 8

/-- `LUMA = CMD[4]`: 1 selects LUMA_REF, 0 selects CHROMA_REF (R64). -/
def lumaField {cmdW : Nat} (cmd : Word cmdW) : Channel := if cmd.getLsbD 4 then .luma else .chroma

/-- The most significant `n` bits of a command word as a two's-complement number, `sext_n(CMD[CMD_W-1:CMD_W-n])` (R10). -/
def topField {cmdW : Nat} (n : Nat) (cmd : Word cmdW) : Int := (cmd.extractLsb' (cmdW - n) n).toInt

/-- `QUALITY = sext_16(CMD[31:16])`, QW bits (R7, R65). -/
def qualityField {cmdW : Nat} (cmd : Word cmdW) (qw : Nat := Config.qw) : Int := topField qw cmd

/-- `VALUE = sext_16(CMD[31:16])`, W bits (R7, R65). -/
def valueField {cmdW : Nat} (cmd : Word cmdW) (w : Nat := Config.w) : Int := topField w cmd

/-! ### The opcode map (R69) -/

/-- The value of OP that stands for an opcode (R69). -/
def Opcode.bits : Opcode → BitVec 4
  | .loadCustom => 0x1#4
  | .buildDefault => 0x2#4
  | .buildCustom => 0x3#4
  | .get => 0x4#4
  | .quantize => 0x5#4

/-- The opcode a value of OP stands for; none for the reserved 0x0 and 0x6 to 0xF (R69, R70). -/
def Opcode.ofBits (op : BitVec 4) : Option Opcode :=
  match op with
  | 0x1#4 => some .loadCustom
  | 0x2#4 => some .buildDefault
  | 0x3#4 => some .buildCustom
  | 0x4#4 => some .get
  | 0x5#4 => some .quantize
  | _ => none

/-- The word whose bits `lo + n - 1` down to `lo` are 1. -/
def bitsAt (lo n : Nat) (cmdW : Nat := Config.cmdW) : Word cmdW := (BitVec.allOnes n).setWidth cmdW <<< lo

/-- The bits of a command of an opcode that hold a field: OP and the operands (R61). -/
def Opcode.fieldMask (op : Opcode) (cmdW : Nat := Config.cmdW) (qw : Nat := Config.qw) (w : Nat := Config.w) :
    Word cmdW :=
  match op with
  | .loadCustom => bitsAt 0 4 cmdW ||| bitsAt 4 6 cmdW ||| bitsAt 16 8 cmdW
  | .buildDefault => bitsAt 0 4 cmdW ||| bitsAt 4 1 cmdW ||| bitsAt (cmdW - qw) qw cmdW
  | .buildCustom => bitsAt 0 4 cmdW
  | .get => bitsAt 0 4 cmdW ||| bitsAt 4 6 cmdW
  | .quantize => bitsAt 0 4 cmdW ||| bitsAt 4 6 cmdW ||| bitsAt (cmdW - w) w cmdW

/-- The bits that must be zero in a command of an opcode: those no field holds (R61, R66). Laws/Decode.lean has the five
masks R66 gives. -/
def Opcode.reservedMask (op : Opcode) (cmdW : Nat := Config.cmdW) (qw : Nat := Config.qw) (w : Nat := Config.w) :
    Word cmdW := ~~~op.fieldMask cmdW qw w

/-- The column `match` of the opcode map (R69). -/
def Opcode.rowMatch (op : Opcode) (cmdW : Nat := Config.cmdW) : Word cmdW := op.bits.setWidth cmdW

/-- The column `mask (opcode and reserved bits)` of the opcode map (R69). -/
def Opcode.rowMask (op : Opcode) (cmdW : Nat := Config.cmdW) (qw : Nat := Config.qw) (w : Nat := Config.w) :
    Word cmdW := bitsAt 0 4 cmdW ||| op.reservedMask cmdW qw w

/-- The rows of the opcode map in its order (R69). -/
def Opcode.rows : List Opcode := [.loadCustom, .buildDefault, .buildCustom, .get, .quantize]

/-! ### Decoding -/

/-- Why a word is no command: its opcode is reserved (R122), or one of its reserved bits is 1 (R123). -/
inductive DecodeError where
  | illegalOp
  | reservedField
  deriving DecidableEq, Repr

/-- The command a word of a known opcode with clear reserved bits stands for (R61). -/
def Opcode.operands (op : Opcode) {cmdW : Nat} (cmd : Word cmdW) (qw : Nat := Config.qw) (w : Nat := Config.w)
    (nStep : Nat := Config.nStep) [NeZero nStep] : Instr nStep :=
  match op with
  | .loadCustom => .loadCustom (indexField cmd nStep) (byteField cmd)
  | .buildDefault => .buildDefault (lumaField cmd) (qualityField cmd qw)
  | .buildCustom => .buildCustom
  | .get => .get (indexField cmd nStep)
  | .quantize => .quantize (indexField cmd nStep) (valueField cmd w)

/-- The first two checks every command passes through, in the order of R126: a reserved opcode is ILLEGAL_OP, then a
reserved bit is RESERVED_FIELD. The third, NOT_BUILT, depends on the state and stands in the meanings of GET and
QUANTIZE. -/
def decode {cmdW : Nat} (cmd : Word cmdW) (qw : Nat := Config.qw) (w : Nat := Config.w) (nStep : Nat := Config.nStep)
    [NeZero nStep] : Except DecodeError (Instr nStep) :=
  match Opcode.ofBits (opField cmd) with
  | none => .error .illegalOp
  | some op => if cmd &&& op.reservedMask cmdW qw w ≠ 0#cmdW then .error .reservedField else .ok (op.operands cmd qw w nStep)

/-! ### Encoding -/

/-- The `LUMA` bit of a channel kind (R64). -/
def Channel.bit : Channel → BitVec 1
  | .luma => 1#1
  | .chroma => 0#1

/-- The word of a command, each line the concatenation R71 gives for it, filled up to CMD_W bits with zeros: QUALITY and VALUE
are its most significant bits (R65). -/
def encode {nStep : Nat} (i : Instr nStep) (cmdW : Nat := Config.cmdW) (qw : Nat := Config.qw) (w : Nat := Config.w) :
    Word cmdW :=
  match i with
  | .loadCustom idx byte => (byte ++ 0#6 ++ BitVec.ofNat 6 idx.val ++ 0x1#4).setWidth cmdW
  | .buildDefault channel quality =>
    (BitVec.ofInt qw quality ++ 0#(cmdW - qw - 5) ++ channel.bit ++ 0x2#4).setWidth cmdW
  | .buildCustom => 0x3#cmdW
  | .get idx => (BitVec.ofNat 6 idx.val ++ 0x4#4).setWidth cmdW
  | .quantize idx value =>
    (BitVec.ofInt w value ++ 0#(cmdW - w - 10) ++ BitVec.ofNat 6 idx.val ++ 0x5#4).setWidth cmdW

/-! ### The host's view of a row of the opcode table -/

/-- The command word of an instruction whose table bits are `w`. Words are transferred whole with bit 0 the least
significant (R42), so the table's numbering is the word's own; bits at and above `nbits` are zero. -/
def tableWord (nbits w : Nat) (cmdW : Nat := Config.cmdW) : Word cmdW := BitVec.ofNat cmdW (w % 2 ^ nbits)

/-- The instruction the decoder reads from a table row's word; none where it refuses the word. -/
def decodeTableWord (nbits w : Nat) : Option Instr :=
  match decode (tableWord nbits w) with
  | .ok i => some i
  | .error _ => none

end Sys2Proof
end

