-- ==== Sys2Proof/Machine/State.lean ====
section
/-! DEFINITION. The state: what the spec gives the block (STEP, CUSTOM, BUILT, the command in flight, the response
buffer, the parameters of its instantiation), the host at the other end of the two channels, and the model's own
records. The reasons a step can stop. The state after reset. -/

namespace Sys2Proof.Machine

/-- The status codes of a response (R68). -/
inductive Status where
  | ok
  | illegalOp
  | reservedField
  | notBuilt
  deriving DecidableEq, Repr

/-- What happens from outside at one rising edge of `clk`, and whether the block finishes its command at it (entry 6).
The spec leaves the latency open (R148), so the last bit is free data, like the pins. -/
structure Edge where
  /-- The pin `rst` (R140, R147). -/
  rst : Bool
  /-- The host raises `cmd_valid` for the first word of its stream, if it does not hold it already (R147, R152). -/
  offer : Bool
  /-- The pin `rsp_ready` (R147). -/
  rspReady : Bool
  /-- The block finishes the command in flight at this edge even before its latency bound (R148). -/
  finish : Bool
  deriving DecidableEq, Repr

/-- The edge at which the host presents and takes whatever it can and the block finishes whatever it can. It stands for
every edge after the script's end, so that the fairness of R151 holds there (entry 6). -/
def Edge.eager : Edge := { rst := false, offer := true, rspReady := true, finish := true }

/-- The edge at which the host does nothing and the block finishes its command (entry 7). -/
def Edge.quiet : Edge := { rst := false, offer := false, rspReady := false, finish := true }

/-- The command being executed (R33): its word, and for how many edges it has been in flight (R148). -/
structure Flight (cmdW : Nat := Config.cmdW) where
  word : Word cmdW
  age : Nat
  deriving DecidableEq, Repr

/-- The machine's state: of a block with NSTEP table entries, coefficients of W bits, qualities of QW bits, commands of
CMD_W bits and responses of RSP_W bits (R7). An argument that is not written has this hardware's value (entry 19). -/
structure State (nStep : Nat := Config.nStep) (w : Nat := Config.w) (qw : Nat := Config.qw) (cmdW : Nat := Config.cmdW)
    (rspW : Nat := Config.rspW) where
  /-- `STEP[0..63]`, the step table (R20). -/
  steps : Table StepBits nStep
  /-- `CUSTOM[0..63]`, the custom staging file (R23). -/
  custom : Table Byte nStep
  /-- `BUILT`, the built flag (R25). -/
  built : Bool
  /-- The parameters fixed at instantiation, the two reference tables among them (R7, R27). -/
  cfg : Config.Params nStep w qw cmdW rspW
  /-- The command being executed, if any (R33, R142). -/
  inFlight : Option (Flight cmdW)
  /-- The response buffer: responses the host has not taken, oldest first (R33, R150). -/
  rspBuf : List (Response rspW)
  /-- The host's command stream: words the block has not accepted, oldest first (R29, R44). -/
  stream : List (Word cmdW)
  /-- The host holds `cmd_valid` for the first word of its stream (R147, entry 12). -/
  cmdHeld : Bool
  /-- The responses the host has taken, oldest first (R153, entry 12). -/
  taken : List (Response rspW)
  /-- The coming edges; after the last of them every edge is Edge.eager (entry 6). -/
  script : List Edge
  /-- The fault record: the status of every error response since State.reset, oldest first (R127, entry 10). -/
  faultRecord : List Status
  /-- How many reset edges there have been: the model's own counter, with which Config.freeStep is drawn (entry 2). -/
  resets : Nat
  deriving DecidableEq, Repr

/-- Why the machine stops. -/
inductive Fault where
  /-- Raised by QUANTIZE when BUILT = 1 and STEP[INDEX] = 0: R9 never divides by zero and R21 makes such a state
  impossible. Safe: it only stops, and in states no run reaches (entry 11). -/
  | zeroDivisor
  deriving DecidableEq, Repr

/-- Why the model gives an instruction no meaning. -/
inductive Refusal where
  /-- An instruction that has no meaning yet, by its mnemonic. Raised by no arm of exec. Safe: it only stops. -/
  | notModelled (mnemonic : String)
  deriving DecidableEq, Repr

/-- The state right after reset of a block with the parameters `cfg` (R142): BUILT = 0, CUSTOM all 0, no command in flight,
an empty response buffer. STEP is unspecified there; the value 0 is the model's choice (entry 1). The host has presented
nothing and taken nothing, and its stream comes from outside (entries 7 and 12). -/
def State.resetWith {nStep w qw cmdW rspW : Nat} (cfg : Config.Params nStep w qw cmdW rspW) : State nStep w qw cmdW rspW :=
  { steps := Vector.replicate nStep 0#11
    custom := Vector.replicate nStep 0#8
    built := false
    cfg := cfg
    inFlight := none
    rspBuf := []
    stream := []
    cmdHeld := false
    taken := []
    script := []
    faultRecord := []
    resets := 0 }

/-- The state right after reset of this hardware (R142), its parameters those of Config.default (entries 3 to 5). -/
def State.reset : State := State.resetWith Config.default

end Sys2Proof.Machine
end

