-- ==== Sys2Proof/Machine/Operands.lean ====
section
/-! DEFINITION. What a command reads and how its answer is put together: the reference table a channel kind selects
(R64, R90), the numbers the table entries stand for, the narrowing of R10, the status codes (R68) and the response word
(R62, R67). -/

namespace Sys2Proof.Machine

/-! ### Operands -/

/-- The reference table a channel kind selects (R64). -/
def refTable {nStep w qw cmdW rspW : Nat} (p : Config.Params nStep w qw cmdW rspW) (c : Channel) :
    Table Byte nStep :=
  match c with
  | .luma => p.lumaRef
  | .chroma => p.chromaRef

/-- An unsigned byte as a number, `zext_8` (R10). -/
def byteValue (b : Byte) : Int := b.toNat

/-- A stored step as a number (R20). -/
def stepValue (k : StepBits) : Int := k.toNat

/-! ### Results -/

/-- A stored step from its number, 11 bits (R20). The numbers stored lie in 8..2040 (R97). -/
def toStep (x : Int) : StepBits := BitVec.ofInt 11 x

/-- `to_s16(x)`, W being 16: the W-bit two's-complement field of an integer (R7, R10). -/
def toSigned (x : Int) (w : Nat := Config.w) : Result w := BitVec.ofInt w x

/-- `zext_16(k)` of an unscaled step, W being 16 (R7, R67, R100). -/
def toUnsigned (k : Int) (w : Nat := Config.w) : Result w := BitVec.ofNat w k.toNat

/-- The status codes (R68). -/
def Status.code : Status → BitVec 8
  | .ok => 0x00#8
  | .illegalOp => 0x01#8
  | .reservedField => 0x02#8
  | .notBuilt => 0x03#8

/-- The result of a command without one and of every error, 0 (R62, R67). -/
abbrev noResult (w : Nat := Config.w) : Result w := 0#w

/-- The response word, RSP_W bits: STATUS, the reserved byte that is always 0, RESULT (R7, R62). -/
def responseWord (st : Status) {w : Nat} (r : Result w) (rspW : Nat := Config.rspW) : Response rspW :=
  (st.code ++ 0#(rspW - 8 - w) ++ r).setWidth rspW

/-- `STATUS = RSP[31:24]` (R62). -/
def statusField {rspW : Nat} (rsp : Response rspW) : BitVec 8 := rsp.extractLsb' (rspW - 8) 8

/-- `RSP[23:16]`, reserved (R62). -/
def reservedField {rspW : Nat} (rsp : Response rspW) (w : Nat := Config.w) : BitVec (rspW - 8 - w) :=
  rsp.extractLsb' w (rspW - 8 - w)

/-- `RESULT = RSP[15:0]` (R62). -/
def resultField {rspW : Nat} (rsp : Response rspW) (w : Nat := Config.w) : Result w := rsp.extractLsb' 0 w

end Sys2Proof.Machine
end

