-- ==== Sys2Proof/Machine/Ops.lean ====
section
/-! DEFINITION. The operations the meanings share: writing the two register files (R11), answering, and raising an error
(R12, R121). The block has no memory, so there is no memory operation (R40). -/

namespace Sys2Proof.Machine

/-- What a step, a meaning or a word's run answers. -/
abbrev Answer (nStep : Nat := Config.nStep) (w : Nat := Config.w) (qw : Nat := Config.qw) (cmdW : Nat := Config.cmdW)
    (rspW : Nat := Config.rspW) :=
  Host.Outcome (State nStep w qw cmdW rspW) Fault Refusal

variable {nStep w qw cmdW rspW : Nat}

/-- `CUSTOM[i] <- b` (R11). -/
def State.writeCustom (s : State nStep w qw cmdW rspW) (i : Index nStep) (b : Byte) : State nStep w qw cmdW rspW :=
  { s with custom := s.custom.set i b }

/-- A BUILD's whole write: all 64 entries of STEP and `BUILT <- 1`, one indivisible change (R46, R80). -/
def State.writeTable (s : State nStep w qw cmdW rspW) (t : Table StepBits nStep) : State nStep w qw cmdW rspW :=
  { s with steps := t, built := true }

/-- Emit the response `{STATUS = st, RESULT = r}`: it joins the response buffer behind the earlier ones (R45, R62). -/
def State.emit (s : State nStep w qw cmdW rspW) (st : Status) (r : Result w) : State nStep w qw cmdW rspW :=
  { s with rspBuf := s.rspBuf ++ [responseWord st r rspW] }

/-- `respond(OK, r)`: ends the command with status OK (R12). -/
def State.respond (s : State nStep w qw cmdW rspW) (r : Result w) : State nStep w qw cmdW rspW := s.emit .ok r

/-- `raise Error(st)`: ends the command with status `st` and result 0 and writes no state of the block (R12, R121). The
fault record, the model's own, keeps the status (R127, entry 10). The block has no other exception and nothing to return
from (R120, R129). -/
def State.raiseError (s : State nStep w qw cmdW rspW) (st : Status) : State nStep w qw cmdW rspW :=
  { s.emit st (noResult w) with faultRecord := s.faultRecord ++ [st] }

end Sys2Proof.Machine
end

