-- ==== Sys2Proof/Machine/Channels.lean ====
section
/-! DEFINITION. The two channels at a rising edge of `clk`: the pins of R147 read off the state, the transfers of commands
and responses, back-pressure (R150), the latency bound (R148), the reset edge (R141), and placing a command for the
host's one-word check. -/

namespace Sys2Proof.Machine

variable {nStep w qw cmdW rspW : Nat}

/-- What happens from outside at the coming edge: the script's first entry, or the eager edge after its end
(entry 6). -/
def State.edge (s : State nStep w qw cmdW rspW) : Edge := s.script.headD Edge.eager

/-- The block has room for one more response (R150). -/
def State.hasRoom (s : State nStep w qw cmdW rspW) : Bool := decide (s.rspBuf.length < s.cfg.rspDepth)

/-! ### The pins (R147) -/

/-- `rst` at the coming edge. -/
def State.rst (s : State nStep w qw cmdW rspW) : Bool := s.edge.rst

/-- `cmd_valid`: the host presents a command word, one it holds from an earlier edge or raises now. -/
def State.cmdValid (s : State nStep w qw cmdW rspW) : Bool := (s.cmdHeld || s.edge.offer) && !s.stream.isEmpty

/-- `cmd_data`: the first word of the host's stream; the spec gives the pin no value while cmd_valid is 0 (entry 18). -/
def State.cmdData (s : State nStep w qw cmdW rspW) : Option (Word cmdW) := if s.cmdValid then s.stream.head? else none

/-- `cmd_ready`: 0 while `rst` is 1 (R141), while a command is in flight (entry 8) and while the response buffer is full
(R150). -/
def State.cmdReady (s : State nStep w qw cmdW rspW) : Bool := !s.rst && s.inFlight.isNone && s.hasRoom

/-- `rsp_valid`: the block presents the oldest response; 0 while `rst` is 1 (R141). -/
def State.rspValid (s : State nStep w qw cmdW rspW) : Bool := !s.rst && !s.rspBuf.isEmpty

/-- `rsp_data`: the oldest response; the spec gives the pin no value while rsp_valid is 0 (entry 18). -/
def State.rspData (s : State nStep w qw cmdW rspW) : Option (Response rspW) := if s.rspValid then s.rspBuf.head? else none

/-- `rsp_ready`. -/
def State.rspReady (s : State nStep w qw cmdW rspW) : Bool := s.edge.rspReady

/-! ### Transfers (R147) -/

/-- A command is accepted at this edge: `cmd_valid = 1` and `cmd_ready = 1`. -/
def State.accepts (s : State nStep w qw cmdW rspW) : Bool := s.cmdValid && s.cmdReady

/-- A response is taken at this edge: `rsp_valid = 1` and `rsp_ready = 1`. -/
def State.takes (s : State nStep w qw cmdW rspW) : Bool := s.rspValid && s.rspReady

/-- The edge has passed: the script moves on, and the host holds a command it presents until it is accepted (R147,
R152). -/
def State.passEdge (s : State nStep w qw cmdW rspW) : State nStep w qw cmdW rspW :=
  { s with script := s.script.tail, cmdHeld := s.cmdValid && !s.accepts }

/-- The oldest response goes from the buffer to the host (R45, R147). -/
def State.takeResponse (s : State nStep w qw cmdW rspW) : State nStep w qw cmdW rspW :=
  { s with rspBuf := s.rspBuf.tail, taken := s.taken ++ s.rspBuf.head?.toList }

/-- The first word of the host's stream becomes the command in flight (R44, R147). -/
def State.acceptCommand (s : State nStep w qw cmdW rspW) : State nStep w qw cmdW rspW :=
  { s with stream := s.stream.tail, inFlight := s.stream.head?.map fun cmd => { word := cmd, age := 0 } }

/-- Both channels at an edge without reset, each transfer decided by the pins before the edge (entry 9). -/
def State.transfer (s : State nStep w qw cmdW rspW) : State nStep w qw cmdW rspW :=
  let s₁ := if s.takes then s.passEdge.takeResponse else s.passEdge
  if s.accepts then s₁.acceptCommand else s₁

/-! ### The command in flight -/

/-- The latency bound of a word (R148): LAT_BUILD for a BUILD that executes, LAT_OP for the other commands and every
erroring word. -/
def latencyBound [NeZero nStep] (p : Config.Params nStep w qw cmdW rspW) (cmd : Word cmdW) : Nat :=
  match decode cmd qw w nStep with
  | .ok (.buildDefault _ _) => p.latBuild
  | .ok .buildCustom => p.latBuild
  | _ => p.latOp

/-- The block answers the command in flight at this edge: the response buffer has room, and the script says so or the
latency bound is reached (R148, entries 5 and 13). -/
def State.completes [NeZero nStep] (s : State nStep w qw cmdW rspW) (f : Flight cmdW) : Bool :=
  s.hasRoom && (s.edge.finish || decide (latencyBound s.cfg f.word ≤ f.age + 1))

/-- The channels have moved and the command in flight leaves its place to be executed. -/
def State.beginCompletion (s : State nStep w qw cmdW rspW) : State nStep w qw cmdW rspW := { s.transfer with inFlight := none }

/-- The channels have moved and the command stays in flight for one more edge. -/
def State.keepInFlight (s : State nStep w qw cmdW rspW) (f : Flight cmdW) : State nStep w qw cmdW rspW :=
  { s.transfer with inFlight := some { f with age := f.age + 1 } }

/-! ### Reset -/

/-- An edge with `rst = 1` (R141): BUILT and CUSTOM are cleared, STEP is unspecified (a free value, entry 2), the command in
flight is abandoned and the responses not taken are discarded. The parameters stay, and so do the host's own stream and
the responses it took before (entry 17). The fault record is never cleared (entry 10). -/
def State.resetEdge (s : State nStep w qw cmdW rspW) : State nStep w qw cmdW rspW :=
  { s.passEdge with
    steps := Vector.ofFn (Config.freeStep s.resets)
    custom := Vector.replicate nStep 0#8
    built := false
    inFlight := none
    rspBuf := []
    resets := s.resets + 1 }

/-! ### Placing a command -/

/-- The responses in the buffer go to the host when the buffer is full, so that there is room for one more. -/
def State.makeRoom (s : State nStep w qw cmdW rspW) : State nStep w qw cmdW rspW :=
  if s.hasRoom then s else { s with rspBuf := [], taken := s.taken ++ s.rspBuf }

/-- The word `cmd` has just been accepted, and the coming edge is one at which the block finishes it (entry 7). -/
def State.placeCommand (s : State nStep w qw cmdW rspW) (cmd : Word cmdW) : State nStep w qw cmdW rspW :=
  { s.makeRoom with
    inFlight := some { word := cmd, age := 0 }
    script := Edge.quiet :: s.script }

end Sys2Proof.Machine
end

