-- ==== Sys2Proof/Machine/Flags.lean ====
section
/-! DEFINITION. The block has no status flags or condition codes (R30). The one bit beside the register files is BUILT
(R25): the check GET and QUANTIZE make of it. It is set in State.writeTable and cleared in State.resetEdge. -/

namespace Sys2Proof.Machine

variable {nStep w qw cmdW rspW : Nat}

/-- The last check of R126: GET and QUANTIZE while BUILT = 0 raise NOT_BUILT (R124), else the command goes on. -/
def requireBuilt (s : State nStep w qw cmdW rspW) (go : State nStep w qw cmdW rspW → Answer nStep w qw cmdW rspW) :
    Answer nStep w qw cmdW rspW :=
  if s.built then go s else .next (s.raiseError .notBuilt)

end Sys2Proof.Machine
end

