-- ==== Sys2Proof/Machine/TableApply.lean ====
section
/-! DEFINITION. The table read and apply commands: GET (R100) and QUANTIZE (R105). -/

namespace Sys2Proof.Machine

variable {nStep w qw cmdW rspW : Nat}

/-- GET: answer the unscaled step (R100). -/
def execGet (idx : Index nStep) (s : State nStep w qw cmdW rspW) :
    Answer nStep w qw cmdW rspW :=
  requireBuilt s fun s => .next (s.respond (toUnsigned (unscaled s.cfg.numbers (stepValue s.steps[idx])) w))

/-- QUANTIZE: divide the coefficient by the step, to nearest with ties away from zero (R105). A zero step under BUILT = 1
cannot be (R21), and the model stops on one (entry 11). -/
def execQuantize (idx : Index nStep) (value : Int) (s : State nStep w qw cmdW rspW) :
    Answer nStep w qw cmdW rspW :=
  requireBuilt s fun s =>
    if s.steps[idx] = 0#11 then .fault .zeroDivisor
    else .next (s.respond (toSigned (roundedQuotient value (stepValue s.steps[idx])) w))

end Sys2Proof.Machine
end

