-- ==== Sys2Proof/Machine/TableBuild.lean ====
section
/-! DEFINITION. The table construction commands: LOAD_CUSTOM (R85), BUILD_DEFAULT (R90), BUILD_CUSTOM (R95). -/

namespace Sys2Proof.Machine

variable {nStep w qw cmdW rspW : Nat}

/-- The table BUILD_DEFAULT builds: `newval(v, scale(clampQ(quality))) << 3` for each reference byte `v` (R90). -/
def defaultTable (n : Config.Numbers) (ref : Table Byte nStep) (quality : Int) : Table StepBits nStep :=
  Vector.ofFn fun i => toStep (premultiply n (newval n (byteValue ref[i]) (scale (clampQ n quality))))

/-- The table BUILD_CUSTOM builds: `max(1, CUSTOM[i]) * 8` (R84, R95). -/
def customTable (n : Config.Numbers) (custom : Table Byte nStep) : Table StepBits nStep :=
  Vector.ofFn fun i => toStep (premultiply n (floorOne (byteValue custom[i])))

/-- LOAD_CUSTOM: `CUSTOM[INDEX] <- BYTE` and answer OK (R85). -/
def execLoadCustom (idx : Index nStep) (byte : Byte) (s : State nStep w qw cmdW rspW) :
    Answer nStep w qw cmdW rspW :=
  .next ((s.writeCustom idx byte).respond (noResult w))

/-- BUILD_DEFAULT: build STEP from the selected reference table, set BUILT and answer OK (R90). -/
def execBuildDefault (channel : Channel) (quality : Int) (s : State nStep w qw cmdW rspW) :
    Answer nStep w qw cmdW rspW :=
  .next ((s.writeTable (defaultTable s.cfg.numbers (refTable s.cfg channel) quality)).respond (noResult w))

/-- BUILD_CUSTOM: build STEP from the staging file, set BUILT and answer OK; CUSTOM keeps its values (R95, R24). -/
def execBuildCustom (s : State nStep w qw cmdW rspW) :
    Answer nStep w qw cmdW rspW :=
  .next ((s.writeTable (customTable s.cfg.numbers s.custom)).respond (noResult w))

end Sys2Proof.Machine
end

