-- ==== Sys2Proof/Machine/Perform.lean ====
section
/-! DEFINITION. Which meaning each command has, in a block of any sizes and widths (R7). -/

namespace Sys2Proof.Machine

/-- The rule of a command, run on a state (R126, its last line). `exec` of Dispatch.lean is this at the sizes and widths of
this hardware (entry 19; perform_eq_exec in Laws/Ops.lean). -/
def perform {nStep w qw cmdW rspW : Nat} (i : Instr nStep) (s : State nStep w qw cmdW rspW) :
    Answer nStep w qw cmdW rspW :=
  match i with
  | .loadCustom idx byte => execLoadCustom idx byte s
  | .buildDefault channel quality => execBuildDefault channel quality s
  | .buildCustom => execBuildCustom s
  | .get idx => execGet idx s
  | .quantize idx value => execQuantize idx value s

end Sys2Proof.Machine
end

