-- ==== Sys2Proof/Machine/Fetch.lean ====
section
/-! DEFINITION. Running a command word (R126) and one rising edge of `clk`. -/

namespace Sys2Proof.Machine

variable {nStep w qw cmdW rspW : Nat}

/-- The status a word that is no command answers with (R122, R123). -/
def errorStatus (e : DecodeError) : Status :=
  match e with
  | .illegalOp => .illegalOp
  | .reservedField => .reservedField

/-- Run one command word: decode it, raise the error of a word that is no command, else execute its rule (R126). -/
def runWord [NeZero nStep] (cmd : Word cmdW) (s : State nStep w qw cmdW rspW) : Answer nStep w qw cmdW rspW :=
  match decode cmd qw w nStep with
  | .ok i => perform i s
  | .error e => .next (s.raiseError (errorStatus e))

/-- One rising edge of `clk`: reset if `rst` is 1 (R140); otherwise the transfers of both channels (R147), and the command in
flight, if there is one, is answered or stays in flight (R33, R148). -/
def clockEdge [NeZero nStep] (s : State nStep w qw cmdW rspW) : Answer nStep w qw cmdW rspW :=
  if s.rst then .next s.resetEdge
  else
    match s.inFlight with
    | none => .next s.transfer
    | some f => if s.completes f then runWord f.word s.beginCompletion else .next (s.keepInFlight f)

end Sys2Proof.Machine
end

