-- ==== Sys2Proof/Machine/Step.lean ====
section
/-! DEFINITION. The step: one rising edge of `clk` (entry 6). And the state in which a given word is the next command the
block runs (entry 7). -/

namespace Sys2Proof.Machine

/-- One step of the machine: `clockEdge`, which a block of any sizes and widths has, at those of this hardware (entry 19). -/
def step : State → Host.Outcome State Fault Refusal := clockEdge

/-- `s` with a table row's word accepted as the command in flight, so that the very next step runs it (entry 7). -/
def State.withFetchWord (s : State) (nbits w : Nat) : State := s.placeCommand (tableWord nbits w)

/-- `s` with a command stream presented by the host, as a program comes to the block (entry 7). -/
def State.withStream (s : State) (words : List Word) : State := { s with stream := words }

end Sys2Proof.Machine
end

