-- ==== Sys2Proof/Machine/Dispatch.lean ====
section
/-! DEFINITION. One arm per command: which meaning each constructor of Instr has. -/

namespace Sys2Proof.Machine

/-- The rule of a command, run on a state (R126, its last line). -/
def exec (i : Instr) (s : State) : Host.Outcome State Fault Refusal :=
  match i with
  | .loadCustom idx byte => Sys2Proof.Machine.execLoadCustom idx byte s
  | .buildDefault channel quality => Sys2Proof.Machine.execBuildDefault channel quality s
  | .buildCustom => Sys2Proof.Machine.execBuildCustom s
  | .get idx => Sys2Proof.Machine.execGet idx s
  | .quantize idx value => Sys2Proof.Machine.execQuantize idx value s

end Sys2Proof.Machine
end

