-- ==== Sys2Proof/Machine/Assembler.lean ====
section
/-! DEFINITION. The assembler of R71 and the pseudo-commands of R72: a line of source text to an AsmLine, an AsmLine to
its command words. It has no effect on the machine (D22). -/

namespace Sys2Proof.Machine.Asm

/-! ### From a line to its words -/

/-- An operand as a table index. AsmLine.wf refuses one outside 0..NSTEP-1 (R71). -/
def indexOf (x : Int) (nStep : Nat := Config.nStep) [NeZero nStep] : Index nStep := Fin.ofNat nStep x.toNat

/-- The word of `LOAD_CUSTOM idx, byte` (R71). -/
def loadCustomWord (idx byte : Int) (nStep : Nat := Config.nStep) [NeZero nStep] (cmdW : Nat := Config.cmdW) : Word cmdW :=
  encode (.loadCustom (indexOf idx nStep) (BitVec.ofInt 8 byte)) cmdW

/-- `LOAD_CUSTOM_TABLE b0, ..., b63`: a command `LOAD_CUSTOM i, bi` for each of the NSTEP entries, in the order of `i`
(R7, R72). -/
def loadCustomTableWords (bytes : List Int) (nStep : Nat := Config.nStep) [NeZero nStep]
    (cmdW : Nat := Config.cmdW) : List (Word cmdW) :=
  (List.range nStep).map fun (i : Nat) => loadCustomWord i (bytes.getD i 0) nStep cmdW

/-- The words a line in range stands for: one for a command or a raw word (R71), the exact expansion for a
pseudo-command (R72). -/
def words (l : AsmLine) (nStep : Nat := Config.nStep) [NeZero nStep] (cmdW : Nat := Config.cmdW) (qw : Nat := Config.qw)
    (w : Nat := Config.w) : List (Word cmdW) :=
  match l with
  | .loadCustom idx byte => [loadCustomWord idx byte nStep cmdW]
  | .buildDefault channel quality => [encode (.buildDefault channel quality : Instr nStep) cmdW qw w]
  | .buildCustom => [encode (.buildCustom : Instr nStep) cmdW qw w]
  | .get idx => [encode (.get (indexOf idx nStep)) cmdW qw w]
  | .quantize idx value => [encode (.quantize (indexOf idx nStep) value) cmdW qw w]
  | .word bits => [BitVec.ofInt cmdW bits]
  | .loadCustomTable bytes => loadCustomTableWords bytes nStep cmdW
  | .buildCustomTable bytes => loadCustomTableWords bytes nStep cmdW ++ [encode (.buildCustom : Instr nStep) cmdW qw w]
  | .getTable => (List.range nStep).map fun (i : Nat) => encode (.get (indexOf i nStep)) cmdW qw w

/-- Assemble a line: an operand out of its range is refused, never truncated (R71). -/
def assemble (l : AsmLine) (nStep : Nat := Config.nStep) [NeZero nStep] (cmdW : Nat := Config.cmdW) (qw : Nat := Config.qw)
    (w : Nat := Config.w) : Option (List (Word cmdW)) :=
  if l.wf nStep cmdW qw w then some (words l nStep cmdW qw w) else none

/-! ### From text to a line (entry 16) -/

/-- Blanks between the parts of a line. -/
def isBlank (c : Char) : Bool := c = ' ' || c = '\t'

/-- A text without the blanks at its two ends. -/
def trim (cs : List Char) : List Char := ((cs.dropWhile isBlank).reverse.dropWhile isBlank).reverse

/-- The pieces of a text between its commas. -/
def splitCommas : List Char → List (List Char)
  | [] => [[]]
  | c :: cs =>
    match splitCommas cs with
    | [] => [[c]]
    | p :: ps => if c = ',' then [] :: p :: ps else (c :: p) :: ps

/-- The value of a decimal or hexadecimal digit. -/
def digitValue (c : Char) : Option Nat :=
  if '0' ≤ c ∧ c ≤ '9' then some (c.toNat - 48)
  else if 'a' ≤ c ∧ c ≤ 'f' then some (c.toNat - 87)
  else if 'A' ≤ c ∧ c ≤ 'F' then some (c.toNat - 55)
  else none

/-- Digits of a base, read on from `acc`. -/
def readDigits (base acc : Nat) : List Char → Option Nat
  | [] => some acc
  | c :: cs =>
    match digitValue c with
    | some d => if d < base then readDigits base (acc * base + d) cs else none
    | none => none

/-- A number without a sign: decimal, or hexadecimal with `0x` (R71). -/
def readNat : List Char → Option Nat
  | [] => none
  | ['0', 'x'] => none
  | '0' :: 'x' :: cs => readDigits 16 0 cs
  | cs => readDigits 10 0 cs

/-- A number, negative if `-` stands before it (R71). -/
def readInt : List Char → Option Int
  | '-' :: cs => (readNat cs).map fun n => -(n : Int)
  | cs => (readNat cs).map fun n => (n : Int)

/-- All the numbers of a list of operands, or none if one is no number. -/
def readInts : List (List Char) → Option (List Int)
  | [] => some []
  | t :: ts =>
    match readInt t, readInts ts with
    | some x, some xs => some (x :: xs)
    | _, _ => none

/-- The channel kind's name (R71). -/
def readChannel (t : List Char) : Option Channel :=
  if t = "luma".toList then some .luma
  else if t = "chroma".toList then some .chroma
  else none

/-- The line a mnemonic and its operands make (R71, R72). -/
def lineOf (mnemonic : List Char) (operands : List (List Char)) : Option AsmLine :=
  if mnemonic = "BUILD_DEFAULT".toList then
    match operands with
    | [c, q] =>
      match readChannel c, readInt q with
      | some channel, some quality => some (.buildDefault channel quality)
      | _, _ => none
    | _ => none
  else
    match readInts operands with
    | none => none
    | some xs =>
      if mnemonic = "LOAD_CUSTOM_TABLE".toList then some (.loadCustomTable xs)
      else if mnemonic = "BUILD_CUSTOM_TABLE".toList then some (.buildCustomTable xs)
      else
        match xs with
        | [] =>
          if mnemonic = "BUILD_CUSTOM".toList then some .buildCustom
          else if mnemonic = "GET_TABLE".toList then some .getTable
          else none
        | [x] =>
          if mnemonic = "GET".toList then some (.get x)
          else if mnemonic = ".word".toList then some (.word x)
          else none
        | [x, y] =>
          if mnemonic = "LOAD_CUSTOM".toList then some (.loadCustom x y)
          else if mnemonic = "QUANTIZE".toList then some (.quantize x y)
          else none
        | _ => none

/-- Read a line of source: the mnemonic, then its operands separated by commas (R71). -/
def parse (text : String) : Option AsmLine :=
  let cs := trim text.toList
  let rest := trim (cs.dropWhile fun c => !isBlank c)
  lineOf (cs.takeWhile fun c => !isBlank c) (if rest = [] then [] else (splitCommas rest).map trim)

/-- Assemble a line of source text. -/
def assembleText (text : String) : Option (List Word) := (parse text).bind assemble

end Sys2Proof.Machine.Asm
end

