-- ==== Sys2Proof/Safety.lean ====
section
/-! DEFINITION. The terms claims are stated in: the ranges of operands, the invariant of the machine, the legal responses, a stream of commands
run one after another with no channel between (R44), what is observed of a run (R153) and what a state's run will be
observed to be, the end of a run, and the work still to be done. -/

namespace Sys2Proof.Machine

/-- `x` is a two's-complement 16-bit value, -32768..32767 (R8, R65). -/
abbrev IsS16 (x : Int) : Prop := -32768 ≤ x ∧ x ≤ 32767

/-- `x` is a table index, 0..63 (R41). -/
abbrev IsIndex (x : Int) : Prop := 0 ≤ x ∧ x ≤ 63

/-- `x` is an unsigned byte, 0..255 (R64). -/
abbrev IsByte (x : Int) : Prop := 0 ≤ x ∧ x ≤ 255

/-- A stored step of a built table: `8 * k` with `k` in 1..255 (R21). -/
abbrev StepOk (k : StepBits) : Prop := 8 ≤ k.toNat ∧ k.toNat ≤ 2040 ∧ k.toNat % 8 = 0

/-- A response the block can produce: RSP[23:16] is 0, and the status is OK, or one of the three errors with result 0
(R62, R68, I6). -/
abbrev LegalResponse (rsp : Response) : Prop :=
  rsp.extractLsb' 16 8 = 0#8 ∧
    (rsp.extractLsb' 24 8 = 0x00#8 ∨ rsp = 0x01000000#32 ∨ rsp = 0x02000000#32 ∨ rsp = 0x03000000#32)

/-- The invariant of the machine. -/
structure Inv (s : State) : Prop where
  /-- The parameters are ones R7 and R27 allow. -/
  cfg : s.cfg.WF
  /-- The step table's invariant (R21). -/
  table : s.built = true → ∀ i : Index, StepOk s.steps[i]
  /-- The response buffer holds at most RSP_DEPTH responses (R150). -/
  buffer : s.rspBuf.length ≤ s.cfg.rspDepth
  /-- While a command is in flight there is room for its response. -/
  flight : s.inFlight ≠ none → s.hasRoom = true
  /-- Every response is one the block can produce (R62, R68). -/
  responses : ∀ rsp ∈ s.taken ++ s.rspBuf, LegalResponse rsp

/-- `s` with one more response in the buffer and nothing else changed. -/
def State.answered (s : State) (rsp : Response) : State := { s with rspBuf := s.rspBuf ++ [rsp] }

/-- The answer is the response `rsp` and nothing else: every field but the response buffer, and the model's own fault record
(entry 10), is as before (R121). -/
def AnswersError (o : Answer) (s : State) (rsp : Response) : Prop :=
  ∃ record, o = .next { s with rspBuf := s.rspBuf ++ [rsp], faultRecord := record }

/-- The reference byte a channel kind selects at an index (R27, R64). -/
def State.refByte (s : State) (c : Channel) (i : Index) : Byte :=
  match c with
  | .luma => s.cfg.lumaRef[i]
  | .chroma => s.cfg.chromaRef[i]

/-- The command is one of the two BUILDs (R22). -/
def IsBuild (i : Instr) : Prop := (∃ c q, i = .buildDefault c q) ∨ i = .buildCustom

/-- The bits of a word that must be zero for its opcode (R66), 0 for a reserved opcode. -/
def reservedBitsOf (w : Word) : Word :=
  match (w.extractLsb' 0 4).toNat with
  | 1 => w &&& 0xFF00FC00#32
  | 2 => w &&& 0x0000FFE0#32
  | 3 => w &&& 0xFFFFFFF0#32
  | 4 => w &&& 0xFFFFFC00#32
  | 5 => w &&& 0x0000FC00#32
  | _ => 0#32

/-- No error response since State.reset: the premise R127 asks claims about command streams to take. -/
def State.noErrors (s : State) : Prop := s.faultRecord = []

/-- Run a stream of command words one at a time, in order, each on the state the one before left (R44). -/
def runStream : List Word → State → Answer
  | [], s => .next s
  | w :: ws, s =>
    match runWord w s with
    | .next s' => runStream ws s'
    | .fault r => .fault r
    | .refused r => .refused r

/-- The commands the block has still to answer: the one in flight, then the host's stream (R44). -/
def State.pending (s : State) : List Word := (s.inFlight.map Flight.word).toList ++ s.stream

/-- All responses, taken or waiting, in order (R45). -/
def State.responses (s : State) : List Response := s.taken ++ s.rspBuf

/-- The observation of a run (R153): the responses in order and the final STEP, CUSTOM, BUILT. What STEP holds before the
first BUILD is not observed. -/
structure Observation where
  responses : List Response
  steps : Option (Table StepBits)
  custom : Table Byte
  built : Bool
  deriving DecidableEq, Repr

/-- What is observed of a state (R153). -/
def State.observe (s : State) : Observation :=
  { responses := s.responses
    steps := if s.built then some s.steps else none
    custom := s.custom
    built := s.built }

/-- What a run from `s` will be observed to be when every pending command has been executed in order, with no word said of
edges, buffers or latencies; none if the model stops on the way. -/
def State.predicted (s : State) : Option Observation :=
  match runStream s.pending s with
  | .next t => some t.observe
  | .fault _ => none
  | .refused _ => none

/-- The end of a run (R153): every command was accepted and answered, and its response taken. -/
def State.Ended (s : State) : Prop := s.stream = [] ∧ s.inFlight = none ∧ s.rspBuf = []

/-- How much is left to do: three transfers or executions for a command not accepted, two for the one in flight, one for
a response not taken. -/
def State.work (s : State) : Nat :=
  3 * s.stream.length + (if s.inFlight.isSome then 2 else 0) + s.rspBuf.length

end Sys2Proof.Machine
end

