-- ==== Sys2Proof/Certificates/Slice0/Obligations.lean ====
section
/-! DEFINITION. The statements for the provers. Each docstring names the rule of spec/ it formalises. The premise
`s.cfg.numbers = Config.qtb1` says that the block has the numbers R7 gives this hardware: PREMUL 8, QMIN 1, QMAX 100,
VMIN 1, VMAX 255 (entry 19). The invariant Inv holds it, and no step changes it. -/

open Sys2Proof Sys2Proof.Machine

/-! ### Encoding and decoding -/

/-- R73: the example encodings, word by word, in both directions. -/
def Obligations.ExampleEncodingsAreTheCommandsTheyStandFor : Prop :=
  ∀ p ∈ ([(.buildDefault .luma 50, 0x00320012#32), (.buildDefault .chroma 75, 0x004B0002#32),
      (.buildDefault .luma (-1), 0xFFFF0012#32), (.buildDefault .luma 101, 0x00650012#32),
      (.buildCustom, 0x00000003#32), (.loadCustom 0 200#8, 0x00C80001#32), (.loadCustom 5 0#8, 0x00000051#32),
      (.get 0, 0x00000004#32), (.get 63, 0x000003F4#32), (.quantize 0 (-300), 0xFED40005#32),
      (.quantize 63 32767, 0x7FFF03F5#32)] : List (Instr × Word)),
    encode p.1 = p.2 ∧ decode p.2 = .ok p.1

/-- R61, R71: no bit of an operand is lost. Decoding the word of a well-formed command gives the command back. -/
def Obligations.DecodeOfEncodeGivesTheCommandBack : Prop :=
  ∀ i : Instr, i.wf = true → decode (encode i) = .ok i

/-- R61, R69: each command word has one meaning. A word that decodes to a command decodes to a well-formed one, whose
encoding is the word. -/
def Obligations.EncodeOfDecodeGivesTheWordBack : Prop :=
  ∀ (w : Word) (i : Instr), decode w = .ok i → i.wf = true ∧ encode i = w

/-- R69: a word is the well-formed command of a row exactly when it matches the row's match under the row's mask. A word
whose OP is in 0x1..0x5 but which matches no row has a reserved bit set. A word whose OP is 0x0 or in 0x6..0xF is
illegal. -/
def Obligations.WordIsTheCommandWhoseRowItMatches : Prop :=
  ∀ w : Word,
    (w &&& 0xFF00FC0F#32 = 0x00000001#32 ↔ ∃ idx byte, decode w = .ok (.loadCustom idx byte)) ∧
    (w &&& 0x0000FFEF#32 = 0x00000002#32 ↔ ∃ c q, decode w = .ok (.buildDefault c q)) ∧
    (w &&& 0xFFFFFFFF#32 = 0x00000003#32 ↔ decode w = .ok .buildCustom) ∧
    (w &&& 0xFFFFFC0F#32 = 0x00000004#32 ↔ ∃ idx, decode w = .ok (.get idx)) ∧
    (w &&& 0x0000FC0F#32 = 0x00000005#32 ↔ ∃ idx x, decode w = .ok (.quantize idx x)) ∧
    ((∀ i, decode w ≠ .ok i) →
      (1 ≤ (w.extractLsb' 0 4).toNat ∧ (w.extractLsb' 0 4).toNat ≤ 5 → decode w = .error .reservedField) ∧
      ((w.extractLsb' 0 4).toNat = 0 ∨ 6 ≤ (w.extractLsb' 0 4).toNat → decode w = .error .illegalOp))

/-! ### Error responses -/

/-- R122 to R126: the three error causes, in the order of R126, each with the response the rules give and no other
effect. A word with none of them is executed by its command's rule and answers status OK wherever it answers. -/
def Obligations.ErrorCausesAnswerInOrderAndElseTheCommandRuns : Prop :=
  ∀ (w : Word) (s : State),
    let op := (w.extractLsb' 0 4).toNat
    (op = 0 ∨ 6 ≤ op → AnswersError (runWord w s) s 0x01000000#32) ∧
    (1 ≤ op ∧ op ≤ 5 → reservedBitsOf w ≠ 0#32 → AnswersError (runWord w s) s 0x02000000#32) ∧
    (1 ≤ op ∧ op ≤ 5 → reservedBitsOf w = 0#32 → (op = 4 ∨ op = 5) ∧ s.built = false →
      AnswersError (runWord w s) s 0x03000000#32) ∧
    (1 ≤ op ∧ op ≤ 5 → reservedBitsOf w = 0#32 → ¬((op = 4 ∨ op = 5) ∧ s.built = false) →
      ∃ i, decode w = .ok i ∧ runWord w s = exec i s ∧
        ∀ t, exec i s = .next t → ∃ r, t.rspBuf = s.rspBuf ++ [r] ∧ r.extractLsb' 24 8 = 0x00#8)

/-- R124: GET and QUANTIZE answer NOT_BUILT while BUILT = 0 and do nothing else; no other command ever answers it, and
these two only then. -/
def Obligations.ReadsBeforeABuildAnswerNotBuilt : Prop :=
  (∀ (s : State) (idx : Index) (x : Int), s.built = false →
    AnswersError (exec (.get idx) s) s 0x03000000#32 ∧
    AnswersError (exec (.quantize idx x) s) s 0x03000000#32) ∧
  (∀ (s t : State) (i : Instr), exec i s = .next t → t.rspBuf = s.rspBuf ++ [0x03000000#32] →
    s.built = false ∧ ((∃ idx, i = .get idx) ∨ ∃ idx x, i = .quantize idx x))

/-- R121: a command that answers an error answers `RSP = s << 24` and writes none of STEP, CUSTOM and BUILT; it is not
sticky: the next word does what it would have done without it. -/
def Obligations.ErrorResponseHasNoEffectAndIsNotSticky : Prop :=
  ∀ (w : Word) (s t : State), runWord w s = .next t →
    ∃ r, t.rspBuf = s.rspBuf ++ [r] ∧
      (r.extractLsb' 24 8 ≠ 0x00#8 →
        r.extractLsb' 0 24 = 0#24 ∧ t.steps = s.steps ∧ t.custom = s.custom ∧ t.built = s.built ∧
        ∀ (w' : Word) (t' : State), runWord w' t = .next t' →
          ∃ u r', runWord w' s = .next u ∧ u.rspBuf = s.rspBuf ++ [r'] ∧ t'.rspBuf = t.rspBuf ++ [r'] ∧
            u.steps = t'.steps ∧ u.custom = t'.custom ∧ u.built = t'.built)

/-- R62, R68: every word run answers exactly one response; RSP[23:16] is 0, the status is one of the four, and the result
is 0 for every error and for every command without a result. -/
def Obligations.EveryWordAnswersOneResponseOfTheFormat : Prop :=
  ∀ (w : Word) (s t : State), runWord w s = .next t →
    ∃ r, t.rspBuf = s.rspBuf ++ [r] ∧ r.extractLsb' 16 8 = 0#8 ∧ (r.extractLsb' 24 8).toNat ≤ 3 ∧
      (r.extractLsb' 24 8 ≠ 0x00#8 → r.extractLsb' 0 16 = 0#16) ∧
      (∀ i, decode w = .ok i → (∀ idx x, i ≠ .get idx ∧ i ≠ .quantize idx x) → r = 0x00000000#32)

/-! ### The commands -/

/-- R85: LOAD_CUSTOM completes from every state: it writes the one byte, answers 0x00000000 and changes nothing else. Its
word, by fields and reserved bits. -/
def Obligations.LoadCustomWritesOneByteAndAnswersOk : Prop :=
  (∀ (s : State) (idx : Index) (byte : Byte),
    ∃ t, exec (.loadCustom idx byte) s = .next t ∧ t.custom[idx] = byte ∧
      (∀ j : Index, j ≠ idx → t.custom[j] = s.custom[j]) ∧
      t = { s with custom := t.custom, rspBuf := s.rspBuf ++ [0x00000000#32] }) ∧
  (∀ (w : Word) (s : State), w.extractLsb' 0 4 = 0x1#4 →
    (w &&& 0xFF00FC00#32 ≠ 0#32 → AnswersError (runWord w s) s 0x02000000#32) ∧
    (w &&& 0xFF00FC00#32 = 0#32 → ∃ idx : Index, idx.val = (w.extractLsb' 4 6).toNat ∧
      runWord w s = exec (.loadCustom idx (w.extractLsb' 16 8)) s))

/-- R90 (with R81 to R83 written out): BUILD_DEFAULT completes from every state: with the numbers of R7 every step is the
premultiplied, clamped, scaled reference byte, BUILT is 1, the answer is 0x00000000, and nothing else changes. Its word, by fields and reserved
bits. -/
def Obligations.BuildDefaultBuildsEveryStepFromTheReferenceTable : Prop :=
  (∀ (s : State) (c : Channel) (q : Int),
    ∃ t, exec (.buildDefault c q) s = .next t ∧
      (s.cfg.numbers = Config.qtb1 → ∀ i : Index,
        let v : Int := (s.refByte c i).toNat
        let qc := max 1 (min 100 q)
        let sc := if qc < 50 then 5000 / qc else 200 - 2 * qc
        (t.steps[i].toNat : Int) = 8 * max 1 (min 255 ((v * sc + 50) / 100))) ∧
      t = { s with steps := t.steps, built := true, rspBuf := s.rspBuf ++ [0x00000000#32] }) ∧
  (∀ (w : Word) (s : State), w.extractLsb' 0 4 = 0x2#4 →
    (w &&& 0x0000FFE0#32 ≠ 0#32 → AnswersError (runWord w s) s 0x02000000#32) ∧
    (w &&& 0x0000FFE0#32 = 0#32 →
      runWord w s = exec (.buildDefault (if w.getLsbD 4 then .luma else .chroma) (w.extractLsb' 16 16).toInt) s))

/-- R95 (with R84 written out): BUILD_CUSTOM completes from every state: with the numbers of R7 every step is 8 times the
custom byte with a zero floored to 1, BUILT is 1, the answer is 0x00000000, and nothing else changes. Its word, by reserved bits. -/
def Obligations.BuildCustomBuildsEveryStepFromTheStagingFile : Prop :=
  (∀ s : State,
    ∃ t, exec .buildCustom s = .next t ∧
      (s.cfg.numbers = Config.qtb1 → ∀ i : Index, t.steps[i].toNat = 8 * max 1 s.custom[i].toNat) ∧
      t = { s with steps := t.steps, built := true, rspBuf := s.rspBuf ++ [0x00000000#32] }) ∧
  (∀ (w : Word) (s : State), w.extractLsb' 0 4 = 0x3#4 →
    (w &&& 0xFFFFFFF0#32 ≠ 0#32 → AnswersError (runWord w s) s 0x02000000#32) ∧
    (w &&& 0xFFFFFFF0#32 = 0#32 → runWord w s = exec .buildCustom s))

/-- R100: GET completes while BUILT = 1: it answers one OK response and changes nothing else; with the numbers of R7 the
result is the step without its three low bits. Its
word, by fields, reserved bits and BUILT. -/
def Obligations.GetAnswersTheUnscaledStep : Prop :=
  (∀ (s : State) (idx : Index), s.built = true →
    ∃ r : Response, exec (.get idx) s = .next (s.answered r) ∧ r.extractLsb' 24 8 = 0x00#8 ∧
      (s.cfg.numbers = Config.qtb1 → r = BitVec.ofNat 32 (s.steps[idx].toNat / 8))) ∧
  (∀ (w : Word) (s : State), w.extractLsb' 0 4 = 0x4#4 →
    (w &&& 0xFFFFFC00#32 ≠ 0#32 → AnswersError (runWord w s) s 0x02000000#32) ∧
    (w &&& 0xFFFFFC00#32 = 0#32 → s.built = false →
      AnswersError (runWord w s) s 0x03000000#32) ∧
    (w &&& 0xFFFFFC00#32 = 0#32 → s.built = true → ∃ idx : Index, idx.val = (w.extractLsb' 4 6).toNat ∧
      runWord w s = exec (.get idx) s))

/-- R105: QUANTIZE completes while BUILT = 1 and the step is one of a built table (R21): it answers the quotient of the
pseudocode, which fits the result field, and changes nothing else. Its word, by fields, reserved bits and BUILT. -/
def Obligations.QuantizeAnswersTheRoundedQuotient : Prop :=
  (∀ (s : State) (idx : Index) (x : Int), s.built = true → StepOk s.steps[idx] → IsS16 x →
    let q := s.steps[idx].toNat
    let m : Int := ((x.natAbs + q / 2) / q : Nat)
    ∃ r : Response, exec (.quantize idx x) s = .next (s.answered r) ∧ r.extractLsb' 16 16 = 0#16 ∧
      (r.extractLsb' 0 16).toInt = if x < 0 then -m else m) ∧
  (∀ (w : Word) (s : State), w.extractLsb' 0 4 = 0x5#4 →
    (w &&& 0x0000FC00#32 ≠ 0#32 → AnswersError (runWord w s) s 0x02000000#32) ∧
    (w &&& 0x0000FC00#32 = 0#32 → s.built = false →
      AnswersError (runWord w s) s 0x03000000#32) ∧
    (w &&& 0x0000FC00#32 = 0#32 → s.built = true → ∃ idx : Index, idx.val = (w.extractLsb' 4 6).toNat ∧
      runWord w s = exec (.quantize idx (w.extractLsb' 16 16).toInt) s))

/-- The model's own stop (entry 11): QUANTIZE by a zero step under BUILT = 1, which R9 and R21 exclude, is a fault, and it
is the only case in which any command stops. -/
def Obligations.OnlyQuantizeByAZeroStepStops : Prop :=
  ∀ (s : State) (i : Instr),
    (∃ idx x, i = .quantize idx x ∧ s.built = true ∧ s.steps[idx] = 0#11 ∧ exec i s = .fault .zeroDivisor) ∨
    ((∀ idx x, i = .quantize idx x → s.built = true → s.steps[idx] ≠ 0#11) ∧ ∃ t, exec i s = .next t)

/-! ### Who writes and who reads the state -/

/-- R47: GET and QUANTIZE write no state; after any command but a BUILD they answer what they answered before it; and
LOAD_CUSTOM and the BUILDs are idempotent. -/
def Obligations.ReadsArePureAndWritesAreIdempotent : Prop :=
  (∀ (s t : State) (idx : Index) (x : Int), (exec (.get idx) s = .next t ∨ exec (.quantize idx x) s = .next t) →
    t = { s with rspBuf := t.rspBuf, faultRecord := t.faultRecord }) ∧
  (∀ (s t u v : State) (i j : Instr), ((∃ idx, i = .get idx) ∨ ∃ idx x, i = .quantize idx x) → ¬IsBuild j →
    exec j s = .next t → exec i s = .next u → exec i t = .next v →
    ∃ r, u.rspBuf = s.rspBuf ++ [r] ∧ v.rspBuf = t.rspBuf ++ [r]) ∧
  (∀ (s t u : State) (i : Instr), ((∃ idx byte, i = .loadCustom idx byte) ∨ IsBuild i) →
    exec i s = .next t → exec i t = .next u → u.steps = t.steps ∧ u.custom = t.custom ∧ u.built = t.built)

/-- R22, R46: at an edge without reset STEP changes only when a BUILD in flight is executed, and then all 64 entries and
BUILT become that BUILD's at once, none of the old entries playing a part. GET and QUANTIZE read one entry. -/
def Obligations.StepTableChangesOnlyByAWholeBuild : Prop :=
  (∀ s t : State, s.rst = false → step s = .next t → t.steps ≠ s.steps →
    ∃ f i u, s.inFlight = some f ∧ decode f.word = .ok i ∧ IsBuild i ∧ exec i s = .next u ∧
      t.built = true ∧ t.steps = u.steps) ∧
  (∀ (s : State) (k : Table StepBits) (i : Instr), IsBuild i →
    ∃ t t', exec i s = .next t ∧ exec i { s with steps := k } = .next t' ∧ t.steps = t'.steps) ∧
  (∀ (s t : State) (k : Table StepBits) (idx : Index) (x : Int) (i : Instr), i = .get idx ∨ i = .quantize idx x →
    k[idx] = s.steps[idx] → exec i s = .next t → exec i { s with steps := k } = .next { t with steps := k })

/-- R25: BUILT is 0 after reset, is set by each BUILD, is set by nothing else and is cleared by nothing but reset.
While it is 0, GET and QUANTIZE refuse with NOT_BUILT. -/
def Obligations.BuiltIsSetByBuildsAndClearedByResetOnly : Prop :=
  State.reset.built = false ∧
  (∀ (s : State) (i : Instr), IsBuild i → ∃ t, exec i s = .next t ∧ t.built = true) ∧
  (∀ (s : State) (idx : Index) (x : Int), s.built = false →
    AnswersError (exec (.get idx) s) s 0x03000000#32 ∧
    AnswersError (exec (.quantize idx x) s) s 0x03000000#32) ∧
  (∀ s t : State, step s = .next t →
    (s.rst = true → t.built = false) ∧
    (s.rst = false → s.built = true → t.built = true) ∧
    (s.rst = false → s.built = false → t.built = true →
      ∃ f i, s.inFlight = some f ∧ decode f.word = .ok i ∧ IsBuild i))

/-- R23, R24: at an edge without reset CUSTOM changes only when a LOAD_CUSTOM in flight is executed, and then in its one
entry only. -/
def Obligations.StagingFileChangesOnlyByLoadCustom : Prop :=
  ∀ s t : State, s.rst = false → step s = .next t → t.custom ≠ s.custom →
    ∃ f idx byte, s.inFlight = some f ∧ decode f.word = .ok (.loadCustom idx byte) ∧ t.custom[idx] = byte ∧
      ∀ j : Index, j ≠ idx → t.custom[j] = s.custom[j]

/-- R23: no word but BUILD_CUSTOM's does anything that depends on CUSTOM, and none answers anything of it. -/
def Obligations.OnlyBuildCustomReadsTheStagingFile : Prop :=
  ∀ (w : Word) (s t : State) (c : Table Byte), runWord w s = .next t →
    ∃ t', runWord w { s with custom := c } = .next t' ∧ t'.rspBuf = t.rspBuf ∧ t'.built = t.built ∧
      (decode w ≠ .ok .buildCustom → t'.steps = t.steps)

/-- R26: STEP is unobservable before the first BUILD. From a state with BUILT = 0 the whole run that is still to come is
observed the same whatever STEP holds. -/
def Obligations.StepTableIsUnobservableBeforeABuild : Prop :=
  ∀ (s : State) (k : Table StepBits), s.built = false → State.predicted { s with steps := k } = s.predicted

/-- R27, R152: no step changes the parameters of the block, the two reference tables among them. -/
def Obligations.NoStepChangesTheParameters : Prop :=
  ∀ s t : State, step s = .next t → t.cfg = s.cfg

/-! ### Laws of construction -/

/-- R81, R82: the clamped quality of every integer, and the scale of every clamped quality with its range. -/
def Obligations.QualityIsClampedAndScaledInRange : Prop :=
  (∀ q : Int, (q ≤ 1 → clampQ Config.qtb1 q = 1) ∧ (100 ≤ q → clampQ Config.qtb1 q = 100) ∧
    (1 ≤ q ∧ q ≤ 100 → clampQ Config.qtb1 q = q)) ∧
  (∀ qc : Int, 1 ≤ qc → qc ≤ 100 →
    (qc < 50 → scale qc = 5000 / qc) ∧ (50 ≤ qc → scale qc = 200 - 2 * qc) ∧ 0 ≤ scale qc ∧ scale qc ≤ 5000) ∧
  scale 1 = 5000 ∧ scale 49 = 102 ∧ scale 50 = 100 ∧ scale 100 = 0

/-- R91: the bounds of the intermediate values of BUILD_DEFAULT, for every quality and every byte. -/
def Obligations.BuildDefaultIntermediatesFitTheirWidths : Prop :=
  ∀ (q : Int) (b : Byte),
    let v : Int := b.toNat
    let qc := clampQ Config.qtb1 q
    let n := newval Config.qtb1 v (scale qc)
    1 ≤ qc ∧ qc ≤ 100 ∧ 0 ≤ scale qc ∧ scale qc ≤ 5000 ∧
    v * scale qc + 50 ≤ 1275050 ∧ v * scale qc + 50 < 2 ^ 21 ∧
    1 ≤ n ∧ n ≤ 255 ∧ 8 ≤ n * 8 ∧ n * 8 ≤ 2040

/-- R92: at every quality of 100 and above, for every reference table, every step is 8 and every GET answers 1. -/
def Obligations.QualityHundredBuildsStepEight : Prop :=
  ∀ (s : State) (c : Channel) (q : Int), s.cfg.numbers = Config.qtb1 → 100 ≤ q →
    ∃ t, exec (.buildDefault c q) s = .next t ∧
      ∀ i : Index, t.steps[i] = 8#11 ∧ exec (.get i) t = .next (t.answered 0x00000001#32)

/-- R93: at quality 50 every step is 8 times the reference byte and every GET answers the reference byte. -/
def Obligations.QualityFiftyBuildsTheReferenceTable : Prop :=
  ∀ (s : State) (c : Channel), s.cfg.WF →
    ∃ t, exec (.buildDefault c 50) s = .next t ∧
      ∀ i : Index, t.steps[i].toNat = 8 * (s.refByte c i).toNat ∧
        exec (.get i) t = .next (t.answered ((s.refByte c i).setWidth 32))

/-- R94: a lower quality gives, index by index, a coarser or equal unscaled step. -/
def Obligations.UnscaledStepNeverGrowsWithQuality : Prop :=
  ∀ (s : State) (c : Channel) (q₁ q₂ : Int), s.cfg.numbers = Config.qtb1 → q₁ ≤ q₂ →
    ∃ t₁ t₂, exec (.buildDefault c q₁) s = .next t₁ ∧ exec (.buildDefault c q₂) s = .next t₂ ∧
      ∀ i : Index, t₂.steps[i].toNat / 8 ≤ t₁.steps[i].toNat / 8

/-- R97: after any BUILD, from any state, every step is a multiple of 8 in 8..2040. -/
def Obligations.EveryBuildGivesMultiplesOfEightInRange : Prop :=
  ∀ (s : State) (i : Instr), s.cfg.numbers = Config.qtb1 → IsBuild i →
    ∃ t, exec i s = .next t ∧ ∀ j : Index, 8 ≤ t.steps[j].toNat ∧ t.steps[j].toNat ≤ 2040 ∧ t.steps[j].toNat % 8 = 0

/-- R98: BUILD_DEFAULT at a quality and at the clamped quality leave the same state; so do qualities 0 and 1, and 101 and
100. -/
def Obligations.OutOfRangeQualityBuildsAsTheClampedOne : Prop :=
  ∀ (s : State) (c : Channel) (q : Int), s.cfg.numbers = Config.qtb1 →
    exec (.buildDefault c q) s = exec (.buildDefault c (max 1 (min 100 q))) s ∧
    exec (.buildDefault c 0) s = exec (.buildDefault c 1) s ∧
    exec (.buildDefault c 101) s = exec (.buildDefault c 100) s

/-- R99: a BUILD's table depends on nothing but what the BUILD reads: the selected reference table, or CUSTOM. The two
states are of blocks with the same numbers of R7. -/
def Obligations.BuildDependsOnlyOnWhatItReads : Prop :=
  ∀ s s' : State, s.cfg.numbers = s'.cfg.numbers →
    (∀ (c : Channel) (q : Int), (∀ i : Index, s.refByte c i = s'.refByte c i) →
      ∃ t t', exec (.buildDefault c q) s = .next t ∧ exec (.buildDefault c q) s' = .next t' ∧
        t.steps = t'.steps ∧ t.built = t'.built) ∧
    (s.custom = s'.custom →
      ∃ t t', exec .buildCustom s = .next t ∧ exec .buildCustom s' = .next t' ∧
        t.steps = t'.steps ∧ t.built = t'.built)

/-! ### Laws of reading and quantizing -/

/-- R101: what GET answers after each BUILD, and that it lies in 1..255. -/
def Obligations.GetAfterBuildAnswersTheBuiltStep : Prop :=
  ∀ (s : State) (i : Index), s.cfg.numbers = Config.qtb1 →
    (∃ t, exec .buildCustom s = .next t ∧ ∃ k : Nat, exec (.get i) t = .next (t.answered (BitVec.ofNat 32 k)) ∧
      k = max 1 s.custom[i].toNat ∧ 1 ≤ k ∧ k ≤ 255) ∧
    (∀ (c : Channel) (q : Int),
      ∃ t, exec (.buildDefault c q) s = .next t ∧ ∃ k : Nat, exec (.get i) t = .next (t.answered (BitVec.ofNat 32 k)) ∧
        (k : Int) = newval Config.qtb1 (s.refByte c i).toNat (scale (clampQ Config.qtb1 q)) ∧ 1 ≤ k ∧ k ≤ 255)

/-- R106: the intermediate of QUANTIZE is at most 33788, the magnitude at most 4096, and the result lies in
-4096..4096. -/
def Obligations.QuantizeResultLiesInItsRange : Prop :=
  ∀ (s : State) (idx : Index) (x : Int), s.built = true → StepOk s.steps[idx] → IsS16 x →
    x.natAbs + s.steps[idx].toNat / 2 ≤ 33788 ∧
    (x.natAbs + s.steps[idx].toNat / 2) / s.steps[idx].toNat ≤ 4096 ∧
    ∃ r : Response, exec (.quantize idx x) s = .next (s.answered r) ∧
      -4096 ≤ (r.extractLsb' 0 16).toInt ∧ (r.extractLsb' 0 16).toInt ≤ 4096

/-- R107: the result is the integer nearest to `x / q`, ties away from zero; its magnitude is `floor(|x| / q + 1/2)` and
it never has the sign opposite to `x`. -/
def Obligations.QuantizeRoundsToNearestTiesAwayFromZero : Prop :=
  ∀ (s : State) (idx : Index) (x : Int), s.built = true → StepOk s.steps[idx] → IsS16 x →
    ∃ r : Response, exec (.quantize idx x) s = .next (s.answered r) ∧
      let q : Int := s.steps[idx].toNat
      let n : Int := (r.extractLsb' 0 16).toInt
      2 * |x - n * q| ≤ q ∧ (2 * |x - n * q| = q → |x| < |n * q|) ∧ 0 ≤ n * x ∧
      |n| = ⌊(|x| : ℚ) / (q : ℚ) + 1 / 2⌋

/-- R108: QUANTIZE of `-x` answers the negative of QUANTIZE of `x`, for every `x` in -32767..32767. -/
def Obligations.QuantizeIsSignSymmetric : Prop :=
  ∀ (s : State) (idx : Index) (x : Int), s.built = true → StepOk s.steps[idx] → -32767 ≤ x → x ≤ 32767 →
    ∃ r r' : Response, exec (.quantize idx x) s = .next (s.answered r) ∧
      exec (.quantize idx (-x)) s = .next (s.answered r') ∧
      (r'.extractLsb' 0 16).toInt = -(r.extractLsb' 0 16).toInt

/-- R109: at step 8, QUANTIZE of `8 * x` answers `x`, for every `x` in -4096..4095. -/
def Obligations.QuantizeAtStepEightRoundTrips : Prop :=
  ∀ (s : State) (idx : Index) (x : Int), s.built = true → s.steps[idx] = 8#11 → -4096 ≤ x → x ≤ 4095 →
    exec (.quantize idx (8 * x)) s = .next (s.answered ((BitVec.ofInt 16 x).setWidth 32))

/-- R110: QUANTIZE divides by 8 times what GET answers. -/
def Obligations.QuantizeDividesByEightTimesGet : Prop :=
  ∀ (s : State) (idx : Index) (x : Int), s.cfg.numbers = Config.qtb1 → s.built = true → StepOk s.steps[idx] → IsS16 x →
    ∃ k : Nat, exec (.get idx) s = .next (s.answered (BitVec.ofNat 32 k)) ∧ k ≤ 255 ∧
      let m : Int := ((x.natAbs + 8 * k / 2) / (8 * k) : Nat)
      exec (.quantize idx x) s = .next (s.answered ((BitVec.ofInt 16 (if x < 0 then -m else m)).setWidth 32))

/-- R144: no hazard. A BUILD_CUSTOM right after a LOAD_CUSTOM builds from the new byte, and a GET or a QUANTIZE right after
any BUILD uses the new table, whatever the table before it. -/
def Obligations.CommandsSeeTheStateTheEarlierOnesLeft : Prop :=
  ∀ s : State, s.cfg.numbers = Config.qtb1 →
    (∀ (idx : Index) (byte : Byte),
      ∃ t u, exec (.loadCustom idx byte) s = .next t ∧ exec .buildCustom t = .next u ∧
        u.steps[idx].toNat = 8 * max 1 byte.toNat ∧
        exec (.get idx) u = .next (u.answered (BitVec.ofNat 32 (max 1 byte.toNat)))) ∧
    (∀ (i : Instr) (idx : Index) (x : Int), IsBuild i → IsS16 x →
      ∃ t, exec i s = .next t ∧ ∃ k : Nat, 1 ≤ k ∧ k ≤ 255 ∧
        (∀ c q, i = .buildDefault c q →
          (k : Int) = newval Config.qtb1 (s.refByte c idx).toNat (scale (clampQ Config.qtb1 q))) ∧
        (i = .buildCustom → k = max 1 s.custom[idx].toNat) ∧
        exec (.get idx) t = .next (t.answered (BitVec.ofNat 32 k)) ∧
        let m : Int := ((x.natAbs + 8 * k / 2) / (8 * k) : Nat)
        exec (.quantize idx x) t = .next (t.answered ((BitVec.ofInt 16 (if x < 0 then -m else m)).setWidth 32)))

/-! ### Parameters and reset -/

/-- R7: the parameters of this hardware. The sizes and widths are those that types and functions have where none is
written (entry 19), and the state after reset carries the numbers of the arithmetic, reference bytes of at least 1 and a response buffer of at least one entry. The
reference bytes themselves and the OPEN numbers are the model's (entries 3 to 5) and not stated, but for luma's first. -/
def Obligations.ParametersTakeTheValuesOfThisHardware : Prop :=
  Config.nStep = 64 ∧ Config.w = 16 ∧ Config.qw = 16 ∧ Config.cmdW = 32 ∧ Config.rspW = 32 ∧
    State.reset.cfg.numbers = { premul := 8, qMin := 1, qMax := 100, vMin := 1, vMax := 255 } ∧
    (∀ (c : Channel) (i : Index), 1 ≤ (State.reset.refByte c i).toNat) ∧ State.reset.refByte .luma 0 = 16#8 ∧
    1 ≤ State.reset.cfg.rspDepth

/-- R142, R24, R25: the state after reset, for every item the spec gives a value for. STEP, the parameters and the host's
side are the model's choices (entries 1, 3, 4, 5, 12) and not stated. -/
def Obligations.ResetStateIsAsTheSpecGivesIt : Prop :=
  State.reset.built = false ∧ (∀ i : Index, State.reset.custom[i] = 0#8) ∧ State.reset.inFlight = none ∧
    State.reset.rspBuf = []

/-- R141: an edge with `rst = 1`. BUILT and CUSTOM are cleared, the command in flight is abandoned with no response, the
responses not taken are discarded, `cmd_ready` and `rsp_valid` are 0, and the parameters stay. Nothing is said of STEP, which is unspecified. -/
def Obligations.ResetEdgeClearsAndDiscards : Prop :=
  ∀ s : State, s.rst = true →
    s.cmdReady = false ∧ s.rspValid = false ∧
    ∃ t, step s = .next t ∧ t.built = false ∧ (∀ i : Index, t.custom[i] = 0#8) ∧ t.inFlight = none ∧ t.rspBuf = [] ∧
      t.cfg = s.cfg

/-- The model's deduction (entry 17) from R141, which sets both ready and valid of the block to 0, and R147: at an edge with
`rst = 1` no command and no response moves. The words the host has not had accepted, the responses it took before and
what it holds on the command channel stay; the responses that waited are not taken. -/
def Obligations.ResetEdgeMovesNothingOnTheChannels : Prop :=
  ∀ s t : State, s.rst = true → step s = .next t →
    t.stream = s.stream ∧ t.taken = s.taken ∧ (s.cmdValid = true → t.cmdValid = true ∧ t.cmdData = s.cmdData)

/-! ### The channels -/

/-- R147: at an edge without reset a command is accepted, leaving the host's stream, exactly when `cmd_valid` and `cmd_ready`
are both 1, and a response is taken exactly when `rsp_valid` and `rsp_ready` are; and a side that raised `valid` keeps it
and its data until the transfer (the block's side until a reset, R141). -/
def Obligations.TransfersHappenExactlyOnValidAndReady : Prop :=
  ∀ s t : State, s.rst = false → step s = .next t →
    ((s.cmdValid = true ∧ s.cmdReady = true → ∃ w, s.cmdData = some w ∧ s.stream = w :: t.stream) ∧
      (¬(s.cmdValid = true ∧ s.cmdReady = true) → t.stream = s.stream ∧
        (s.cmdValid = true → t.cmdValid = true ∧ t.cmdData = s.cmdData))) ∧
    ((s.rspValid = true ∧ s.rspReady = true → ∃ r, s.rspData = some r ∧ t.taken = s.taken ++ [r]) ∧
      (¬(s.rspValid = true ∧ s.rspReady = true) → t.taken = s.taken ∧
        (s.rspValid = true → t.rst = false → t.rspValid = true ∧ t.rspData = s.rspData)))

/-- R150: the block never holds more than RSP_DEPTH responses, while it holds RSP_DEPTH it accepts no command, and responses
do not reorder. -/
def Obligations.FullResponseBufferAcceptsNoCommand : Prop :=
  ∀ s t : State, Inv s → step s = .next t →
    t.rspBuf.length ≤ t.cfg.rspDepth ∧
    (s.rspBuf.length = s.cfg.rspDepth → s.cmdReady = false ∧ t.stream = s.stream) ∧
    (s.rst = false → ∃ l, t.taken ++ t.rspBuf = s.taken ++ s.rspBuf ++ l)

/-- R45: at an edge without reset the responses, taken and waiting, stay as they are and in order and a command in flight
stays in flight; or the command in flight leaves with exactly one more response at their end, and what is in flight after
it, if anything, is a word accepted at this edge. -/
def Obligations.ResponsesGrowByOnePerCommandInOrder : Prop :=
  ∀ s t : State, s.rst = false → step s = .next t →
    (t.taken ++ t.rspBuf = s.taken ++ s.rspBuf ∧
      ∀ f, s.inFlight = some f → ∃ f', t.inFlight = some f' ∧ f'.word = f.word) ∨
    (∃ f r, s.inFlight = some f ∧ t.taken ++ t.rspBuf = s.taken ++ s.rspBuf ++ [r] ∧
      ∀ f', t.inFlight = some f' → s.stream = f'.word :: t.stream)

/-- The model's choice (entries 5 and 8) of how commands stand in the block between acceptance and answer, of which R33 and
R147 say nothing more: an accepted word is the command in flight after the edge, with age 0; while a command is in flight
no other is accepted, not even at the edge that answers it. -/
def Obligations.AtMostOneCommandIsInFlight : Prop :=
  ∀ s t : State, step s = .next t →
    (∀ w, s.cmdReady = true → s.cmdData = some w → t.inFlight = some { word := w, age := 0 }) ∧
    (∀ f, s.inFlight = some f → s.cmdReady = false ∧ t.stream = s.stream ∧
      (t.inFlight = none ∨ t.inFlight = some { f with age := f.age + 1 }))

/-- R148: whatever the schedule, a command in flight with room for its response is answered within its latency bound,
LAT_BUILD edges for a word that is a BUILD and LAT_OP for any other, if no reset comes first. That the bound is at least
one edge, that a command in flight ages by one at each edge from the age 0 it is accepted with, and that no command is in
flight after the edge of the answer, is the model's choice (entries 5 and 8). -/
def Obligations.CommandInFlightIsAnsweredWithinItsLatency : Prop :=
  (∀ (s t : State) (f : Flight), s.inFlight = none → step s = .next t → t.inFlight = some f → f.age = 0) ∧
  (∀ (s : State) (f : Flight) (bound : Nat), Inv s → s.inFlight = some f → f.age = 0 →
    ((∃ i, decode f.word = .ok i ∧ IsBuild i) → bound = s.cfg.latBuild) →
    ((¬∃ i, decode f.word = .ok i ∧ IsBuild i) → bound = s.cfg.latOp) →
    (∀ e ∈ s.script.take bound, e.rst = false) →
    ∃ k t r, 1 ≤ k ∧ k ≤ bound ∧ Host.Core.run Sys2Proof.core k s = .next t ∧ t.inFlight = none ∧
      t.taken ++ t.rspBuf = s.taken ++ s.rspBuf ++ [r])

/-- R127: no step takes a status out of the fault record, and at an edge without reset it adds the status of an error
response exactly when it answers one; so a state without errors came from states without errors. That the record holds
the statuses, and that a reset edge keeps it, is the model's reading (entry 10). -/
def Obligations.FaultRecordKeepsEveryErrorStatus : Prop :=
  ∀ s t : State, step s = .next t →
    (t.noErrors → s.noErrors) ∧
    (s.rst = true → t.faultRecord = s.faultRecord) ∧
    (s.rst = false →
      (t.taken ++ t.rspBuf = s.taken ++ s.rspBuf ∧ t.faultRecord = s.faultRecord) ∨
      (∃ r, t.taken ++ t.rspBuf = s.taken ++ s.rspBuf ++ [r] ∧
        (r.extractLsb' 24 8 = 0x00#8 → t.faultRecord = s.faultRecord) ∧
        (r.extractLsb' 24 8 ≠ 0x00#8 →
          ∃ st : Status, st.code = r.extractLsb' 24 8 ∧ t.faultRecord = s.faultRecord ++ [st])))

/-! ### The whole machine -/

/-- R33, R44: when the command in flight is answered at an edge, the step is that command's meaning on the state the edge's
transfers leave, with the command out of its place: for a word that decodes, `exec` of the instruction; for any other,
its error. The transfers change nothing a meaning reads. The last clause is about the model's own device (entry 7), which
the spec does not have: the very next step after a word is placed by withFetchWord runs exactly it. -/
def Obligations.StepRunsTheDecodedCommandInFlight : Prop :=
  (∀ (s : State) (f : Flight) (i : Instr), s.rst = false → s.inFlight = some f → s.completes f = true →
    decode f.word = .ok i → step s = exec i { s.transfer with inFlight := none }) ∧
  (∀ (s : State) (f : Flight) (e : DecodeError), s.rst = false → s.inFlight = some f → s.completes f = true →
    decode f.word = .error e → step s = runWord f.word { s.transfer with inFlight := none }) ∧
  (∀ s : State, s.transfer.steps = s.steps ∧ s.transfer.custom = s.custom ∧ s.transfer.built = s.built ∧
    s.transfer.cfg = s.cfg ∧ s.transfer.taken ++ s.transfer.rspBuf = s.taken ++ s.rspBuf) ∧
  (∀ (s : State) (w : Nat), 1 ≤ s.cfg.rspDepth → w < 2 ^ 32 →
    ∃ u, step (s.withFetchWord 32 w) = runWord (BitVec.ofNat 32 w) u ∧ u.steps = s.steps ∧ u.custom = s.custom ∧
      u.built = s.built ∧ u.cfg = s.cfg ∧ u.stream = s.stream ∧ u.inFlight = none ∧
      u.taken ++ u.rspBuf = s.taken ++ s.rspBuf)

/-- R21: every step keeps the step table's invariant: whenever BUILT = 1, every entry is `8 * k` with `k` in 1..255. -/
def Obligations.EveryStepKeepsTheStepTableInvariant : Prop :=
  ∀ s t : State, s.cfg.numbers = Config.qtb1 → (s.built = true → ∀ i : Index, ∃ k : Nat, 1 ≤ k ∧ k ≤ 255 ∧ s.steps[i].toNat = 8 * k) →
    step s = .next t → t.built = true → ∀ i : Index, ∃ k : Nat, 1 ≤ k ∧ k ≤ 255 ∧ t.steps[i].toNat = 8 * k

/-- The invariant of the machine holds of the state after reset, with the parameters the model puts there (entries 3 to
5). -/
def Obligations.InvariantHoldsAtReset : Prop := Inv State.reset

/-- Every step keeps the invariant of the machine: legal parameters, the step table's invariant (R21), the buffer's bound
(R150), room for the command in flight, and responses of the format only (R62, R68). -/
def Obligations.InvariantIsKeptByEveryStep : Prop :=
  ∀ s t : State, Inv s → step s = .next t → Inv t

/-- R120: the block raises no exceptions and takes no traps. From every state of the invariant the step answers a next
state: no fault, no refusal, division by zero impossible (R21). -/
def Obligations.NoStepOfTheInvariantStops : Prop :=
  ∀ s : State, Inv s → ∃ t, step s = .next t

/-- R44, R46: commands take effect one at a time, in order, each on the state the earlier ones left. What a run will be
observed to be is a function of the pending commands alone: no edge without reset changes it, whatever the pins, the
latencies and the buffer do. -/
def Obligations.NoScheduleChangesWhatARunIsObservedToBe : Prop :=
  ∀ s t : State, s.rst = false → step s = .next t → t.predicted = s.predicted

/-- R151: progress, edge by edge. R151 says only that a command is answered and accepted within a finite time; that each
single fair edge makes progress is the model's choice of what an edge is (entry 6), of when `cmd_ready` is 1 (entry 8)
and of when a command waits for room (entry 13). No edge without reset adds work, and an edge at which the host presents
and takes what it can and the block may finish takes work away, unless the run has ended. While the buffer is full no
command is in flight and a response is there for the host to take. -/
def Obligations.EveryFairEdgeMakesProgress : Prop :=
  ∀ s t : State, Inv s → s.rst = false → step s = .next t →
    t.work ≤ s.work ∧
    (s.edge.offer = true → s.rspReady = true → s.edge.finish = true → s.Ended ∨ t.work < s.work) ∧
    (s.hasRoom = false → s.inFlight = none ∧ s.rspValid = true)

/-- R151, R153, R45: under every script of edges without a reset, the run of any command stream ends, with exactly one
response for every command, and is observed to be what the commands one after another give. The model's choices in it:
after the script every edge is the eager one (entry 6), which is the fairness R151 asks for, and the number of edges rests
on the latencies in edges (entry 5) and on one command in flight at a time (entry 8). -/
def Obligations.EveryCommandStreamIsAnsweredAndEnds : Prop :=
  ∀ s : State, Inv s → (∀ e ∈ s.script, e.rst = false) →
    ∃ t, Host.Core.run Sys2Proof.core (s.script.length + s.work) s = .next t ∧ t.Ended ∧ s.predicted = some t.observe ∧
      t.taken.length = s.taken.length + s.rspBuf.length + s.pending.length

/-! ### The assembler -/

/-- R71: the word of every line of the syntax, field by field, and that an operand out of its range is refused. R71 gives
`.word` no range: that a raw word outside 32 bits unsigned is refused is the model's choice (entry 16). -/
def Obligations.AssemblerEncodesInRangeAndRefusesOutOfRange : Prop :=
  (∀ idx byte : Int, Asm.assemble (.loadCustom idx byte) =
    if IsIndex idx ∧ IsByte byte then some [BitVec.ofInt 32 (byte * 65536 + idx * 16 + 1)] else none) ∧
  (∀ q : Int, Asm.assemble (.buildDefault .luma q) =
    if IsS16 q then some [BitVec.ofInt 32 (q * 65536 + 16 + 2)] else none) ∧
  (∀ q : Int, Asm.assemble (.buildDefault .chroma q) =
    if IsS16 q then some [BitVec.ofInt 32 (q * 65536 + 2)] else none) ∧
  Asm.assemble .buildCustom = some [3#32] ∧
  (∀ idx : Int, Asm.assemble (.get idx) = if IsIndex idx then some [BitVec.ofInt 32 (idx * 16 + 4)] else none) ∧
  (∀ idx x : Int, Asm.assemble (.quantize idx x) =
    if IsIndex idx ∧ IsS16 x then some [BitVec.ofInt 32 (x * 65536 + idx * 16 + 5)] else none) ∧
  (∀ n : Int, Asm.assemble (.word n) = if 0 ≤ n ∧ n < 2 ^ 32 then some [BitVec.ofInt 32 n] else none)

/-- R72: the exact expansion of the three pseudo-commands. -/
def Obligations.PseudoCommandsExpandExactly : Prop :=
  (∀ bytes : List Int, bytes.length = 64 → (∀ b ∈ bytes, IsByte b) →
    ∃ ws : List Word, Asm.assemble (.loadCustomTable bytes) = some ws ∧
      Asm.assemble (.buildCustomTable bytes) = some (ws ++ [3#32]) ∧ ws.length = 64 ∧
      ∀ i : Nat, i < 64 → Asm.assemble (.loadCustom i (bytes.getD i 0)) = some (ws[i]?).toList) ∧
  (∃ ws : List Word, Asm.assemble .getTable = some ws ∧ ws.length = 64 ∧
    ∀ i : Nat, i < 64 → Asm.assemble (.get i) = some (ws[i]?).toList)
end

