-- ==== Sys2Proof/Laws/Arith.lean ====
section
/-! SUPPORT. What the arithmetic and the narrowings can answer. -/

namespace Sys2Proof

/-! The numbers of R7 that this hardware takes. -/

@[simp] theorem Config.qtb1_premul : Config.qtb1.premul = 8 := rfl
@[simp] theorem Config.qtb1_qMin : Config.qtb1.qMin = 1 := rfl
@[simp] theorem Config.qtb1_qMax : Config.qtb1.qMax = 100 := rfl
@[simp] theorem Config.qtb1_vMin : Config.qtb1.vMin = 1 := rfl
@[simp] theorem Config.qtb1_vMax : Config.qtb1.vMax = 255 := rfl

namespace Machine

/-- A clamped value lies between the bounds. -/
theorem clamp_range {lo hi : Int} (h : lo ≤ hi) (x : Int) : lo ≤ clamp lo hi x ∧ clamp lo hi x ≤ hi := by
  unfold clamp; omega

/-- A value between the bounds is not changed by a clamp. -/
theorem clamp_of_mem {lo hi x : Int} (h₁ : lo ≤ x) (h₂ : x ≤ hi) : clamp lo hi x = x := by
  unfold clamp; omega

/-- A clamp keeps the order. -/
theorem clamp_mono (lo hi : Int) {x y : Int} (h : x ≤ y) : clamp lo hi x ≤ clamp lo hi y := by
  unfold clamp; omega

/-- A scaled unscaled step lies in 1..255 whatever the byte and the scale (R83). -/
theorem newval_range (v s : Int) : 1 ≤ newval Config.qtb1 v s ∧ newval Config.qtb1 v s ≤ 255 := clamp_range (by decide) _

/-- Removing the premultiply of a stored step is a division by 8 (R9, R100). -/
theorem toUnsigned_unscaled (k : StepBits) :
    toUnsigned (unscaled Config.qtb1 (stepValue k)) = BitVec.ofNat 16 (k.toNat / 8) := by
  have h : unscaled Config.qtb1 (stepValue k) = ((k.toNat / 8 : Nat) : Int) := by
    simp [unscaled, stepValue]
  rw [toUnsigned, h, Int.toNat_natCast]

theorem byteValue_range (b : Byte) : 0 ≤ byteValue b ∧ byteValue b ≤ 255 := by
  have := b.isLt
  unfold byteValue; omega

theorem stepValue_range (k : StepBits) : 0 ≤ stepValue k ∧ stepValue k ≤ 2047 := by
  have := k.isLt
  unfold stepValue; omega

/-- Storing a number that fits 11 bits loses nothing. -/
theorem toNat_toStep {x : Int} (h₁ : 0 ≤ x) (h₂ : x ≤ 2047) : ((toStep x).toNat : Int) = x := by
  unfold toStep
  rw [BitVec.toNat_ofInt]
  omega

/-- Narrowing a number that fits 16 bits signed loses nothing. -/
theorem toInt_toSigned {x : Int} (h₁ : -32768 ≤ x) (h₂ : x ≤ 32767) : (toSigned x).toInt = x := by
  show (BitVec.ofInt 16 x).toInt = x
  rw [BitVec.toInt_ofInt]
  exact Int.bmod_eq_of_le (by omega) (by omega)

end Machine

end Sys2Proof
end

