-- ==== Sys2Proof/Laws/Decode.lean ====
section
/-! SUPPORT. What the decoder can answer. -/

namespace Sys2Proof

/-- A concatenation as a number: the more significant part is shifted past the other (R8). -/
theorem toNat_concat {m n : Nat} (x : BitVec m) (y : BitVec n) : (x ++ y).toNat = x.toNat * 2 ^ n + y.toNat := by
  rw [BitVec.toNat_append, Nat.shiftLeft_eq, Nat.mul_comm, Nat.two_pow_add_eq_or_of_lt y.isLt]

/-! ### The operand ranges of this hardware (R71) -/

/-- An index is in 0..63 (R41). -/
theorem isBelow_64 (x : Int) : isBelow 64 x = decide (0 ≤ x ∧ x ≤ 63) := by
  rw [isBelow, decide_eq_decide]; omega

/-- A byte is in 0..255 (R64). -/
theorem fitsUnsigned_8 (x : Int) : fitsUnsigned 8 x = decide (0 ≤ x ∧ x ≤ 255) := by
  rw [fitsUnsigned, isBelow, decide_eq_decide]; omega

/-- A raw word is below 2 to the 32 (R60). -/
theorem fitsUnsigned_32 (x : Int) : fitsUnsigned 32 x = decide (0 ≤ x ∧ x < 4294967296) := by
  rw [fitsUnsigned, isBelow, decide_eq_decide]; omega

/-- A quality or a coefficient of 16 bits is in -32768..32767 (R65). -/
theorem fitsSigned_16 (x : Int) : fitsSigned 16 x = decide (-32768 ≤ x ∧ x ≤ 32767) := by
  rw [fitsSigned, decide_eq_decide]; omega

/-! ### The masks R66 gives, and the columns of the opcode map (R69), at the widths of this hardware -/

@[simp] theorem Opcode.reservedMask_loadCustom : Opcode.loadCustom.reservedMask = 0xFF00FC00#32 := by decide
@[simp] theorem Opcode.reservedMask_buildDefault : Opcode.buildDefault.reservedMask = 0x0000FFE0#32 := by decide
@[simp] theorem Opcode.reservedMask_buildCustom : Opcode.buildCustom.reservedMask = 0xFFFFFFF0#32 := by decide
@[simp] theorem Opcode.reservedMask_get : Opcode.get.reservedMask = 0xFFFFFC00#32 := by decide
@[simp] theorem Opcode.reservedMask_quantize : Opcode.quantize.reservedMask = 0x0000FC00#32 := by decide

@[simp] theorem Opcode.rowMatch_loadCustom : Opcode.loadCustom.rowMatch = 0x00000001#32 := by decide
@[simp] theorem Opcode.rowMatch_buildDefault : Opcode.buildDefault.rowMatch = 0x00000002#32 := by decide
@[simp] theorem Opcode.rowMatch_buildCustom : Opcode.buildCustom.rowMatch = 0x00000003#32 := by decide
@[simp] theorem Opcode.rowMatch_get : Opcode.get.rowMatch = 0x00000004#32 := by decide
@[simp] theorem Opcode.rowMatch_quantize : Opcode.quantize.rowMatch = 0x00000005#32 := by decide

@[simp] theorem Opcode.rowMask_loadCustom : Opcode.loadCustom.rowMask = 0xFF00FC0F#32 := by decide
@[simp] theorem Opcode.rowMask_buildDefault : Opcode.buildDefault.rowMask = 0x0000FFEF#32 := by decide
@[simp] theorem Opcode.rowMask_buildCustom : Opcode.buildCustom.rowMask = 0xFFFFFFFF#32 := by decide
@[simp] theorem Opcode.rowMask_get : Opcode.get.rowMask = 0xFFFFFC0F#32 := by decide
@[simp] theorem Opcode.rowMask_quantize : Opcode.quantize.rowMask = 0x0000FC0F#32 := by decide

/-! ### The fields, and the words of R71, at the widths of this hardware -/

theorem indexField_val (cmd : Word) : (indexField cmd).val = (cmd.extractLsb' 4 6).toNat :=
  Nat.mod_eq_of_lt (cmd.extractLsb' 4 6).isLt

theorem qualityField_eq (cmd : Word) : qualityField cmd = (cmd.extractLsb' 16 16).toInt := rfl

theorem valueField_eq (cmd : Word) : valueField cmd = (cmd.extractLsb' 16 16).toInt := rfl

theorem encode_loadCustom (idx : Index) (byte : Byte) :
    encode (.loadCustom idx byte) = 0#8 ++ byte ++ 0#6 ++ BitVec.ofNat 6 idx.val ++ 0x1#4 := by
  apply BitVec.eq_of_toNat_eq
  have := byte.isLt
  simp only [encode, BitVec.toNat_setWidth, toNat_concat, BitVec.toNat_ofNat, Config.cmdW]
  omega

theorem encode_buildDefault (channel : Channel) (quality : Int) :
    encode (.buildDefault channel quality : Instr) = BitVec.ofInt 16 quality ++ 0#11 ++ channel.bit ++ 0x2#4 :=
  BitVec.setWidth_eq _

theorem encode_buildCustom : encode (.buildCustom : Instr) = 0#28 ++ 0x3#4 := by decide

theorem encode_get (idx : Index) : encode (.get idx) = 0#22 ++ BitVec.ofNat 6 idx.val ++ 0x4#4 := by
  apply BitVec.eq_of_toNat_eq
  simp only [encode, BitVec.toNat_setWidth, toNat_concat, BitVec.toNat_ofNat, Config.cmdW]
  omega

theorem encode_quantize (idx : Index) (value : Int) :
    encode (.quantize idx value) = BitVec.ofInt 16 value ++ 0#6 ++ BitVec.ofNat 6 idx.val ++ 0x5#4 :=
  BitVec.setWidth_eq _

/-! ### Decoding, at every width -/

@[simp] theorem Opcode.ofBits_bits (op : Opcode) : Opcode.ofBits op.bits = some op := by cases op <;> rfl

/-- A value of OP that stands for an opcode is that opcode's. -/
theorem Opcode.bits_of_ofBits {b : BitVec 4} {op : Opcode} (h : Opcode.ofBits b = some op) : b = op.bits := by
  unfold Opcode.ofBits at h
  split at h <;> first | cases h; rfl | cases h

/-- A word decodes to a command exactly when its opcode is defined and the opcode's reserved bits are clear. -/
theorem decode_ok_iff {cmdW qw w nStep : Nat} [NeZero nStep] {cmd : Word cmdW} {i : Instr nStep} :
    decode cmd qw w nStep = .ok i ↔
      ∃ op, Opcode.ofBits (opField cmd) = some op ∧ cmd &&& op.reservedMask cmdW qw w = 0#cmdW ∧
        op.operands cmd qw w nStep = i := by
  unfold decode
  split
  · simp_all
  · rename_i op hop
    split <;> simp_all

/-- A word's opcode is reserved exactly when the decoder says so. -/
theorem decode_illegalOp_iff {cmdW qw w nStep : Nat} [NeZero nStep] {cmd : Word cmdW} :
    decode cmd qw w nStep = .error .illegalOp ↔ Opcode.ofBits (opField cmd) = none := by
  unfold decode
  split
  · simp_all
  · split <;> simp_all

@[simp] theorem Opcode.opcode_operands (op : Opcode) {cmdW : Nat} (cmd : Word cmdW) (qw w nStep : Nat)
    [NeZero nStep] : (op.operands cmd qw w nStep).opcode = op := by
  cases op <;> rfl

end Sys2Proof
end

