-- ==== Sys2Proof/Laws/State.lean ====
section
/-! SUPPORT. One lemma per field of State and update of the machine: what the update leaves in the field. The updates of
the meanings come first, then those of the channels. -/

namespace Sys2Proof.Machine.State

variable {nStep w qw cmdW rspW : Nat} (s : State nStep w qw cmdW rspW)

/-! ### resetWith -/

section

variable (cfg : Config.Params nStep w qw cmdW rspW)

@[simp] theorem resetWith_steps : (resetWith cfg).steps = Vector.replicate nStep 0#11 := rfl
@[simp] theorem resetWith_custom : (resetWith cfg).custom = Vector.replicate nStep 0#8 := rfl
@[simp] theorem resetWith_built : (resetWith cfg).built = false := rfl
@[simp] theorem resetWith_cfg : (resetWith cfg).cfg = cfg := rfl
@[simp] theorem resetWith_inFlight : (resetWith cfg).inFlight = none := rfl
@[simp] theorem resetWith_rspBuf : (resetWith cfg).rspBuf = [] := rfl
@[simp] theorem resetWith_stream : (resetWith cfg).stream = [] := rfl
@[simp] theorem resetWith_cmdHeld : (resetWith cfg).cmdHeld = false := rfl
@[simp] theorem resetWith_taken : (resetWith cfg).taken = [] := rfl
@[simp] theorem resetWith_script : (resetWith cfg).script = [] := rfl
@[simp] theorem resetWith_faultRecord : (resetWith cfg).faultRecord = [] := rfl
@[simp] theorem resetWith_resets : (resetWith cfg).resets = 0 := rfl

end

/-! ### writeCustom -/

@[simp] theorem writeCustom_steps (i : Index nStep) (b : Byte) : (s.writeCustom i b).steps = s.steps := rfl
@[simp] theorem writeCustom_custom (i : Index nStep) (b : Byte) : (s.writeCustom i b).custom = s.custom.set i b := rfl
@[simp] theorem writeCustom_built (i : Index nStep) (b : Byte) : (s.writeCustom i b).built = s.built := rfl
@[simp] theorem writeCustom_cfg (i : Index nStep) (b : Byte) : (s.writeCustom i b).cfg = s.cfg := rfl
@[simp] theorem writeCustom_inFlight (i : Index nStep) (b : Byte) : (s.writeCustom i b).inFlight = s.inFlight := rfl
@[simp] theorem writeCustom_rspBuf (i : Index nStep) (b : Byte) : (s.writeCustom i b).rspBuf = s.rspBuf := rfl
@[simp] theorem writeCustom_stream (i : Index nStep) (b : Byte) : (s.writeCustom i b).stream = s.stream := rfl
@[simp] theorem writeCustom_cmdHeld (i : Index nStep) (b : Byte) : (s.writeCustom i b).cmdHeld = s.cmdHeld := rfl
@[simp] theorem writeCustom_taken (i : Index nStep) (b : Byte) : (s.writeCustom i b).taken = s.taken := rfl
@[simp] theorem writeCustom_script (i : Index nStep) (b : Byte) : (s.writeCustom i b).script = s.script := rfl
@[simp] theorem writeCustom_faultRecord (i : Index nStep) (b : Byte) :
    (s.writeCustom i b).faultRecord = s.faultRecord :=
    rfl
@[simp] theorem writeCustom_resets (i : Index nStep) (b : Byte) : (s.writeCustom i b).resets = s.resets := rfl

/-! ### writeTable -/

@[simp] theorem writeTable_steps (t : Table StepBits nStep) : (s.writeTable t).steps = t := rfl
@[simp] theorem writeTable_custom (t : Table StepBits nStep) : (s.writeTable t).custom = s.custom := rfl
@[simp] theorem writeTable_built (t : Table StepBits nStep) : (s.writeTable t).built = true := rfl
@[simp] theorem writeTable_cfg (t : Table StepBits nStep) : (s.writeTable t).cfg = s.cfg := rfl
@[simp] theorem writeTable_inFlight (t : Table StepBits nStep) : (s.writeTable t).inFlight = s.inFlight := rfl
@[simp] theorem writeTable_rspBuf (t : Table StepBits nStep) : (s.writeTable t).rspBuf = s.rspBuf := rfl
@[simp] theorem writeTable_stream (t : Table StepBits nStep) : (s.writeTable t).stream = s.stream := rfl
@[simp] theorem writeTable_cmdHeld (t : Table StepBits nStep) : (s.writeTable t).cmdHeld = s.cmdHeld := rfl
@[simp] theorem writeTable_taken (t : Table StepBits nStep) : (s.writeTable t).taken = s.taken := rfl
@[simp] theorem writeTable_script (t : Table StepBits nStep) : (s.writeTable t).script = s.script := rfl
@[simp] theorem writeTable_faultRecord (t : Table StepBits nStep) : (s.writeTable t).faultRecord = s.faultRecord := rfl
@[simp] theorem writeTable_resets (t : Table StepBits nStep) : (s.writeTable t).resets = s.resets := rfl

/-! ### emit -/

@[simp] theorem emit_steps (st : Status) (r : Result w) : (s.emit st r).steps = s.steps := rfl
@[simp] theorem emit_custom (st : Status) (r : Result w) : (s.emit st r).custom = s.custom := rfl
@[simp] theorem emit_built (st : Status) (r : Result w) : (s.emit st r).built = s.built := rfl
@[simp] theorem emit_cfg (st : Status) (r : Result w) : (s.emit st r).cfg = s.cfg := rfl
@[simp] theorem emit_inFlight (st : Status) (r : Result w) : (s.emit st r).inFlight = s.inFlight := rfl
@[simp] theorem emit_rspBuf (st : Status) (r : Result w) : (s.emit st r).rspBuf = s.rspBuf ++ [responseWord st r rspW] := rfl
@[simp] theorem emit_stream (st : Status) (r : Result w) : (s.emit st r).stream = s.stream := rfl
@[simp] theorem emit_cmdHeld (st : Status) (r : Result w) : (s.emit st r).cmdHeld = s.cmdHeld := rfl
@[simp] theorem emit_taken (st : Status) (r : Result w) : (s.emit st r).taken = s.taken := rfl
@[simp] theorem emit_script (st : Status) (r : Result w) : (s.emit st r).script = s.script := rfl
@[simp] theorem emit_faultRecord (st : Status) (r : Result w) : (s.emit st r).faultRecord = s.faultRecord := rfl
@[simp] theorem emit_resets (st : Status) (r : Result w) : (s.emit st r).resets = s.resets := rfl

/-! ### respond -/

@[simp] theorem respond_steps (r : Result w) : (s.respond r).steps = s.steps := rfl
@[simp] theorem respond_custom (r : Result w) : (s.respond r).custom = s.custom := rfl
@[simp] theorem respond_built (r : Result w) : (s.respond r).built = s.built := rfl
@[simp] theorem respond_cfg (r : Result w) : (s.respond r).cfg = s.cfg := rfl
@[simp] theorem respond_inFlight (r : Result w) : (s.respond r).inFlight = s.inFlight := rfl
@[simp] theorem respond_rspBuf (r : Result w) : (s.respond r).rspBuf = s.rspBuf ++ [responseWord .ok r rspW] := rfl
@[simp] theorem respond_stream (r : Result w) : (s.respond r).stream = s.stream := rfl
@[simp] theorem respond_cmdHeld (r : Result w) : (s.respond r).cmdHeld = s.cmdHeld := rfl
@[simp] theorem respond_taken (r : Result w) : (s.respond r).taken = s.taken := rfl
@[simp] theorem respond_script (r : Result w) : (s.respond r).script = s.script := rfl
@[simp] theorem respond_faultRecord (r : Result w) : (s.respond r).faultRecord = s.faultRecord := rfl
@[simp] theorem respond_resets (r : Result w) : (s.respond r).resets = s.resets := rfl

/-! ### raiseError -/

@[simp] theorem raiseError_steps (st : Status) : (s.raiseError st).steps = s.steps := rfl
@[simp] theorem raiseError_custom (st : Status) : (s.raiseError st).custom = s.custom := rfl
@[simp] theorem raiseError_built (st : Status) : (s.raiseError st).built = s.built := rfl
@[simp] theorem raiseError_cfg (st : Status) : (s.raiseError st).cfg = s.cfg := rfl
@[simp] theorem raiseError_inFlight (st : Status) : (s.raiseError st).inFlight = s.inFlight := rfl
@[simp] theorem raiseError_rspBuf (st : Status) : (s.raiseError st).rspBuf = s.rspBuf ++ [responseWord st (noResult w) rspW] := rfl
@[simp] theorem raiseError_stream (st : Status) : (s.raiseError st).stream = s.stream := rfl
@[simp] theorem raiseError_cmdHeld (st : Status) : (s.raiseError st).cmdHeld = s.cmdHeld := rfl
@[simp] theorem raiseError_taken (st : Status) : (s.raiseError st).taken = s.taken := rfl
@[simp] theorem raiseError_script (st : Status) : (s.raiseError st).script = s.script := rfl
@[simp] theorem raiseError_faultRecord (st : Status) : (s.raiseError st).faultRecord = s.faultRecord ++ [st] := rfl
@[simp] theorem raiseError_resets (st : Status) : (s.raiseError st).resets = s.resets := rfl

/-! ### passEdge -/

@[simp] theorem passEdge_steps : (s.passEdge).steps = s.steps := rfl
@[simp] theorem passEdge_custom : (s.passEdge).custom = s.custom := rfl
@[simp] theorem passEdge_built : (s.passEdge).built = s.built := rfl
@[simp] theorem passEdge_cfg : (s.passEdge).cfg = s.cfg := rfl
@[simp] theorem passEdge_inFlight : (s.passEdge).inFlight = s.inFlight := rfl
@[simp] theorem passEdge_rspBuf : (s.passEdge).rspBuf = s.rspBuf := rfl
@[simp] theorem passEdge_stream : (s.passEdge).stream = s.stream := rfl
@[simp] theorem passEdge_cmdHeld : (s.passEdge).cmdHeld = (s.cmdValid && !s.accepts) := rfl
@[simp] theorem passEdge_taken : (s.passEdge).taken = s.taken := rfl
@[simp] theorem passEdge_script : (s.passEdge).script = s.script.tail := rfl
@[simp] theorem passEdge_faultRecord : (s.passEdge).faultRecord = s.faultRecord := rfl
@[simp] theorem passEdge_resets : (s.passEdge).resets = s.resets := rfl

/-! ### takeResponse -/

@[simp] theorem takeResponse_steps : (s.takeResponse).steps = s.steps := rfl
@[simp] theorem takeResponse_custom : (s.takeResponse).custom = s.custom := rfl
@[simp] theorem takeResponse_built : (s.takeResponse).built = s.built := rfl
@[simp] theorem takeResponse_cfg : (s.takeResponse).cfg = s.cfg := rfl
@[simp] theorem takeResponse_inFlight : (s.takeResponse).inFlight = s.inFlight := rfl
@[simp] theorem takeResponse_rspBuf : (s.takeResponse).rspBuf = s.rspBuf.tail := rfl
@[simp] theorem takeResponse_stream : (s.takeResponse).stream = s.stream := rfl
@[simp] theorem takeResponse_cmdHeld : (s.takeResponse).cmdHeld = s.cmdHeld := rfl
@[simp] theorem takeResponse_taken : (s.takeResponse).taken = s.taken ++ s.rspBuf.head?.toList := rfl
@[simp] theorem takeResponse_script : (s.takeResponse).script = s.script := rfl
@[simp] theorem takeResponse_faultRecord : (s.takeResponse).faultRecord = s.faultRecord := rfl
@[simp] theorem takeResponse_resets : (s.takeResponse).resets = s.resets := rfl

/-! ### acceptCommand -/

@[simp] theorem acceptCommand_steps : (s.acceptCommand).steps = s.steps := rfl
@[simp] theorem acceptCommand_custom : (s.acceptCommand).custom = s.custom := rfl
@[simp] theorem acceptCommand_built : (s.acceptCommand).built = s.built := rfl
@[simp] theorem acceptCommand_cfg : (s.acceptCommand).cfg = s.cfg := rfl
@[simp] theorem acceptCommand_inFlight :
    (s.acceptCommand).inFlight = s.stream.head?.map fun cmd => { word := cmd, age := 0 } :=
    rfl
@[simp] theorem acceptCommand_rspBuf : (s.acceptCommand).rspBuf = s.rspBuf := rfl
@[simp] theorem acceptCommand_stream : (s.acceptCommand).stream = s.stream.tail := rfl
@[simp] theorem acceptCommand_cmdHeld : (s.acceptCommand).cmdHeld = s.cmdHeld := rfl
@[simp] theorem acceptCommand_taken : (s.acceptCommand).taken = s.taken := rfl
@[simp] theorem acceptCommand_script : (s.acceptCommand).script = s.script := rfl
@[simp] theorem acceptCommand_faultRecord : (s.acceptCommand).faultRecord = s.faultRecord := rfl
@[simp] theorem acceptCommand_resets : (s.acceptCommand).resets = s.resets := rfl

/-! ### resetEdge -/

@[simp] theorem resetEdge_steps : (s.resetEdge).steps = Vector.ofFn (Config.freeStep s.resets) := rfl
@[simp] theorem resetEdge_custom : (s.resetEdge).custom = Vector.replicate nStep 0#8 := rfl
@[simp] theorem resetEdge_built : (s.resetEdge).built = false := rfl
@[simp] theorem resetEdge_cfg : (s.resetEdge).cfg = s.cfg := by simp only [resetEdge, passEdge_cfg]
@[simp] theorem resetEdge_inFlight : (s.resetEdge).inFlight = none := rfl
@[simp] theorem resetEdge_rspBuf : (s.resetEdge).rspBuf = [] := rfl
@[simp] theorem resetEdge_stream : (s.resetEdge).stream = s.stream := by simp only [resetEdge, passEdge_stream]
@[simp] theorem resetEdge_cmdHeld :
    (s.resetEdge).cmdHeld = (s.cmdValid && !s.accepts) := by simp only [resetEdge, passEdge_cmdHeld]
@[simp] theorem resetEdge_taken : (s.resetEdge).taken = s.taken := by simp only [resetEdge, passEdge_taken]
@[simp] theorem resetEdge_script : (s.resetEdge).script = s.script.tail := by simp only [resetEdge, passEdge_script]
@[simp] theorem resetEdge_faultRecord :
    (s.resetEdge).faultRecord = s.faultRecord := by simp only [resetEdge, passEdge_faultRecord]
@[simp] theorem resetEdge_resets : (s.resetEdge).resets = s.resets + 1 := rfl

/-! ### transfer, beginCompletion, keepInFlight

The transfers are decided by the pins before the edge: `takes` and `accepts` of `s` itself. -/

@[simp] theorem transfer_steps :
    s.transfer.steps = s.steps := by
  unfold transfer; split <;> split <;> simp_all
@[simp] theorem transfer_custom :
    s.transfer.custom = s.custom := by
  unfold transfer; split <;> split <;> simp_all
@[simp] theorem transfer_built :
    s.transfer.built = s.built := by
  unfold transfer; split <;> split <;> simp_all
@[simp] theorem transfer_cfg :
    s.transfer.cfg = s.cfg := by
  unfold transfer; split <;> split <;> simp_all
@[simp] theorem transfer_inFlight :
    s.transfer.inFlight = if s.accepts then s.stream.head?.map (fun cmd => { word := cmd, age := 0 }) else s.inFlight := by
  unfold transfer; split <;> split <;> simp_all
@[simp] theorem transfer_rspBuf :
    s.transfer.rspBuf = if s.takes then s.rspBuf.tail else s.rspBuf := by
  unfold transfer; split <;> split <;> simp_all
@[simp] theorem transfer_stream :
    s.transfer.stream = if s.accepts then s.stream.tail else s.stream := by
  unfold transfer; split <;> split <;> simp_all
@[simp] theorem transfer_cmdHeld :
    s.transfer.cmdHeld = (s.cmdValid && !s.accepts) := by
  unfold transfer; split <;> split <;> simp_all
@[simp] theorem transfer_taken :
    s.transfer.taken = if s.takes then s.taken ++ s.rspBuf.head?.toList else s.taken := by
  unfold transfer; split <;> split <;> simp_all
@[simp] theorem transfer_script :
    s.transfer.script = s.script.tail := by
  unfold transfer; split <;> split <;> simp_all
@[simp] theorem transfer_faultRecord :
    s.transfer.faultRecord = s.faultRecord := by
  unfold transfer; split <;> split <;> simp_all
@[simp] theorem transfer_resets :
    s.transfer.resets = s.resets := by
  unfold transfer; split <;> split <;> simp_all

@[simp] theorem beginCompletion_steps : (s.beginCompletion).steps = s.transfer.steps := rfl
@[simp] theorem beginCompletion_custom : (s.beginCompletion).custom = s.transfer.custom := rfl
@[simp] theorem beginCompletion_built : (s.beginCompletion).built = s.transfer.built := rfl
@[simp] theorem beginCompletion_cfg : (s.beginCompletion).cfg = s.transfer.cfg := rfl
@[simp] theorem beginCompletion_inFlight : (s.beginCompletion).inFlight = none := rfl
@[simp] theorem beginCompletion_rspBuf : (s.beginCompletion).rspBuf = s.transfer.rspBuf := rfl
@[simp] theorem beginCompletion_stream : (s.beginCompletion).stream = s.transfer.stream := rfl
@[simp] theorem beginCompletion_cmdHeld : (s.beginCompletion).cmdHeld = s.transfer.cmdHeld := rfl
@[simp] theorem beginCompletion_taken : (s.beginCompletion).taken = s.transfer.taken := rfl
@[simp] theorem beginCompletion_script : (s.beginCompletion).script = s.transfer.script := rfl
@[simp] theorem beginCompletion_faultRecord : (s.beginCompletion).faultRecord = s.transfer.faultRecord := rfl
@[simp] theorem beginCompletion_resets : (s.beginCompletion).resets = s.transfer.resets := rfl

@[simp] theorem keepInFlight_steps (f : Flight cmdW) : (s.keepInFlight f).steps = s.transfer.steps := rfl
@[simp] theorem keepInFlight_custom (f : Flight cmdW) : (s.keepInFlight f).custom = s.transfer.custom := rfl
@[simp] theorem keepInFlight_built (f : Flight cmdW) : (s.keepInFlight f).built = s.transfer.built := rfl
@[simp] theorem keepInFlight_cfg (f : Flight cmdW) : (s.keepInFlight f).cfg = s.transfer.cfg := rfl
@[simp] theorem keepInFlight_inFlight (f : Flight cmdW) : (s.keepInFlight f).inFlight = some { f with age := f.age + 1 } := rfl
@[simp] theorem keepInFlight_rspBuf (f : Flight cmdW) : (s.keepInFlight f).rspBuf = s.transfer.rspBuf := rfl
@[simp] theorem keepInFlight_stream (f : Flight cmdW) : (s.keepInFlight f).stream = s.transfer.stream := rfl
@[simp] theorem keepInFlight_cmdHeld (f : Flight cmdW) : (s.keepInFlight f).cmdHeld = s.transfer.cmdHeld := rfl
@[simp] theorem keepInFlight_taken (f : Flight cmdW) : (s.keepInFlight f).taken = s.transfer.taken := rfl
@[simp] theorem keepInFlight_script (f : Flight cmdW) : (s.keepInFlight f).script = s.transfer.script := rfl
@[simp] theorem keepInFlight_faultRecord (f : Flight cmdW) : (s.keepInFlight f).faultRecord = s.transfer.faultRecord := rfl
@[simp] theorem keepInFlight_resets (f : Flight cmdW) : (s.keepInFlight f).resets = s.transfer.resets := rfl

end Sys2Proof.Machine.State
end

