-- ==== Sys2Proof/Laws/Ops.lean ====
section
/-! SUPPORT. The fields of a response word, and what the shared check and the meanings can answer. -/

namespace Sys2Proof.Machine

/-! ### The response word -/

/-- A result is below 2 to the W (R62). -/
theorem result_lt (r : Result) : r.toNat < 65536 := r.isLt

/-- With the widths of this hardware the response word is the concatenation R62 gives, nothing cut off and nothing
filled up. -/
theorem responseWord_eq (st : Status) (r : Result) : responseWord st r = st.code ++ 0#8 ++ r := BitVec.setWidth_eq _

theorem toNat_responseWord (st : Status) (r : Result) :
    (responseWord st r).toNat = st.code.toNat * 16777216 + r.toNat := by
  rw [responseWord_eq, toNat_concat, toNat_concat]
  simp [Config.w]
  omega

@[simp] theorem statusField_responseWord (st : Status) (r : Result) : statusField (responseWord st r) = st.code := by
  apply BitVec.eq_of_toNat_eq
  rw [statusField, BitVec.extractLsb'_toNat, toNat_responseWord, Nat.shiftRight_eq_div_pow]
  have := result_lt r
  have := st.code.isLt
  simp only [Config.rspW, Nat.reduceSub, Nat.reducePow]
  omega

@[simp] theorem reservedField_responseWord (st : Status) (r : Result) : reservedField (responseWord st r) = 0#8 := by
  apply BitVec.eq_of_toNat_eq
  rw [reservedField, BitVec.extractLsb'_toNat, toNat_responseWord, Nat.shiftRight_eq_div_pow]
  have := result_lt r
  simp
  omega

@[simp] theorem resultField_responseWord (st : Status) (r : Result) : resultField (responseWord st r) = r := by
  apply BitVec.eq_of_toNat_eq
  rw [resultField, BitVec.extractLsb'_toNat, toNat_responseWord, Nat.shiftRight_eq_div_pow]
  have := result_lt r
  simp [Config.w]
  omega

/-- An OK response is its result, zero-extended. -/
theorem responseWord_ok (r : Result) : responseWord .ok r = r.setWidth 32 := by
  apply BitVec.eq_of_toNat_eq
  have := result_lt r
  rw [toNat_responseWord]
  simp [Status.code, Config.rspW]
  omega

/-- An error's response is its status code alone (R121). -/
theorem responseWord_error (st : Status) : responseWord st noResult = BitVec.ofNat 32 (st.code.toNat * 16777216) := by
  cases st <;> rfl

/-! ### The check of BUILT -/

theorem requireBuilt_of_built {s : State} (h : s.built = true) (go : State → Answer) : requireBuilt s go = go s := by
  simp [requireBuilt, h]

theorem requireBuilt_of_not_built {s : State} (h : s.built = false) (go : State → Answer) :
    requireBuilt s go = .next (s.raiseError .notBuilt) := by
  simp [requireBuilt, h]

/-! ### Commands -/

/-- `exec` is `perform` at the sizes and widths of this hardware. -/
@[simp] theorem perform_eq_exec (i : Instr) (s : State) : perform i s = exec i s := by cases i <;> rfl

/-- What a command that answers can have done: one of the five effects, or NOT_BUILT. -/
theorem exec_cases {i : Instr} {s t : State} (h : exec i s = .next t) :
    (∃ idx byte, i = .loadCustom idx byte ∧ t = (s.writeCustom idx byte).respond noResult) ∨
    (∃ c q, i = .buildDefault c q ∧ t = (s.writeTable (defaultTable s.cfg.numbers (refTable s.cfg c) q)).respond noResult) ∨
    (i = .buildCustom ∧ t = (s.writeTable (customTable s.cfg.numbers s.custom)).respond noResult) ∨
    (∃ idx, i = .get idx ∧ s.built = true ∧ t = s.respond (toUnsigned (unscaled s.cfg.numbers (stepValue s.steps[idx])))) ∨
    (∃ idx x, i = .quantize idx x ∧ s.built = true ∧ s.steps[idx] ≠ 0#11 ∧
      t = s.respond (toSigned (roundedQuotient x (stepValue s.steps[idx])))) ∨
    (((∃ idx, i = .get idx) ∨ ∃ idx x, i = .quantize idx x) ∧ s.built = false ∧ t = s.raiseError .notBuilt) := by
  cases i with
  | loadCustom idx byte =>
    simp only [exec, execLoadCustom, Host.Outcome.next.injEq] at h
    exact .inl ⟨idx, byte, rfl, h.symm⟩
  | buildDefault c q =>
    simp only [exec, execBuildDefault, Host.Outcome.next.injEq] at h
    exact .inr (.inl ⟨c, q, rfl, h.symm⟩)
  | buildCustom =>
    simp only [exec, execBuildCustom, Host.Outcome.next.injEq] at h
    exact .inr (.inr (.inl ⟨rfl, h.symm⟩))
  | get idx =>
    by_cases hb : s.built = true
    · simp only [exec, execGet, requireBuilt_of_built hb, Host.Outcome.next.injEq] at h
      exact .inr (.inr (.inr (.inl ⟨idx, rfl, hb, h.symm⟩)))
    · have hb : s.built = false := by simpa using hb
      simp only [exec, execGet, requireBuilt_of_not_built hb, Host.Outcome.next.injEq] at h
      exact .inr (.inr (.inr (.inr (.inr ⟨.inl ⟨idx, rfl⟩, hb, h.symm⟩))))
  | quantize idx x =>
    by_cases hb : s.built = true
    · simp only [exec, execQuantize, requireBuilt_of_built hb] at h
      split at h
      · cases h
      · simp only [Host.Outcome.next.injEq] at h
        exact .inr (.inr (.inr (.inr (.inl ⟨idx, x, rfl, hb, ‹_›, h.symm⟩))))
    · have hb : s.built = false := by simpa using hb
      simp only [exec, execQuantize, requireBuilt_of_not_built hb, Host.Outcome.next.injEq] at h
      exact .inr (.inr (.inr (.inr (.inr ⟨.inr ⟨idx, x, rfl⟩, hb, h.symm⟩))))

end Sys2Proof.Machine
end

