-- ==== Sys2Proof/Laws/PerInstr.lean ====
section
/-! SUPPORT. The family EncodedFields: the word of every command carries its opcode in OP and matches its row of the
opcode map (R61, R69). One lemma per constructor. -/

namespace Sys2Proof.Laws.EncodedFields

/-- The encoded word has its opcode's bits in OP and matches its row under the row's mask. -/
def Statement (i : Instr) : Prop :=
  opField (encode i) = i.opcode.bits ∧ encode i &&& i.opcode.rowMask = i.opcode.rowMatch

theorem loadCustom (idx : Index) (byte : Byte) : Statement (.loadCustom idx byte) := by
  constructor <;> apply BitVec.eq_of_getLsbD_eq <;> intro i hi <;>
    simp only [opField, encode, Instr.opcode, Opcode.bits, Opcode.rowMask_loadCustom, Opcode.rowMatch_loadCustom, BitVec.getLsbD_extractLsb',
      BitVec.getLsbD_and, BitVec.getLsbD_append, BitVec.getLsbD_setWidth] <;>
    interval_cases i <;> simp

theorem buildDefault (channel : Channel) (quality : Int) : Statement (.buildDefault channel quality) := by
  constructor <;> apply BitVec.eq_of_getLsbD_eq <;> intro i hi <;>
    simp only [opField, encode, Instr.opcode, Opcode.bits, Opcode.rowMask_buildDefault, Opcode.rowMatch_buildDefault, BitVec.getLsbD_extractLsb',
      BitVec.getLsbD_and, BitVec.getLsbD_append, BitVec.getLsbD_setWidth] <;>
    interval_cases i <;> simp

theorem buildCustom : Statement .buildCustom := by
  constructor <;> decide

theorem get (idx : Index) : Statement (.get idx) := by
  constructor <;> apply BitVec.eq_of_getLsbD_eq <;> intro i hi <;>
    simp only [opField, encode, Instr.opcode, Opcode.bits, Opcode.rowMask_get, Opcode.rowMatch_get, BitVec.getLsbD_extractLsb',
      BitVec.getLsbD_and, BitVec.getLsbD_append, BitVec.getLsbD_setWidth] <;>
    interval_cases i <;> simp

theorem quantize (idx : Index) (value : Int) : Statement (.quantize idx value) := by
  constructor <;> apply BitVec.eq_of_getLsbD_eq <;> intro i hi <;>
    simp only [opField, encode, Instr.opcode, Opcode.bits, Opcode.rowMask_quantize, Opcode.rowMatch_quantize, BitVec.getLsbD_extractLsb',
      BitVec.getLsbD_and, BitVec.getLsbD_append, BitVec.getLsbD_setWidth] <;>
    interval_cases i <;> simp

end Sys2Proof.Laws.EncodedFields
end

