-- ==== Sys2Proof/Laws/Step.lean ====
section
/-! SUPPORT. What a word's run and a step can do. -/

namespace Sys2Proof.Machine

theorem runWord_of_ok {w : Word} {i : Instr} (h : decode w = .ok i) (s : State) : runWord w s = exec i s := by
  simp [runWord, h]

theorem runWord_of_error {w : Word} {e : DecodeError} (h : decode w = .error e) (s : State) :
    runWord w s = .next (s.raiseError (errorStatus e)) := by
  simp [runWord, h]

/-- What a word that answers can have done: its command's effect, or an error. -/
theorem runWord_cases {w : Word} {s t : State} (h : runWord w s = .next t) :
    (∃ i, decode w = .ok i ∧ exec i s = .next t) ∨
    (∃ e, decode w = .error e ∧ t = s.raiseError (errorStatus e)) := by
  unfold runWord at h
  split at h
  · exact .inl ⟨_, ‹_›, perform_eq_exec _ s ▸ h⟩
  · simp only [Host.Outcome.next.injEq] at h
    exact .inr ⟨_, ‹_›, h.symm⟩

/-- An edge that passes does one of four things: reset, transfers with no command in flight, an answer to the command in
flight, or one more edge of it. -/
theorem step_cases {s t : State} (h : step s = .next t) :
    (s.rst = true ∧ t = s.resetEdge) ∨
    (s.rst = false ∧ s.inFlight = none ∧ t = s.transfer) ∨
    (∃ f, s.rst = false ∧ s.inFlight = some f ∧ s.completes f = true ∧ runWord f.word s.beginCompletion = .next t) ∨
    (∃ f, s.rst = false ∧ s.inFlight = some f ∧ s.completes f = false ∧ t = s.keepInFlight f) := by
  unfold step clockEdge at h
  split at h
  · simp only [Host.Outcome.next.injEq] at h
    exact .inl ⟨‹_›, h.symm⟩
  · have hr : s.rst = false := by simpa using ‹¬ s.rst = true›
    split at h
    · simp only [Host.Outcome.next.injEq] at h
      exact .inr (.inl ⟨hr, ‹_›, h.symm⟩)
    · rename_i f hf
      split at h
      · exact .inr (.inr (.inl ⟨f, hr, hf, ‹_›, h⟩))
      · simp only [Host.Outcome.next.injEq] at h
        exact .inr (.inr (.inr ⟨f, hr, hf, by simpa using ‹¬ s.completes f = true›, h.symm⟩))

/-- The pins that decide a command's acceptance. -/
theorem State.accepts_iff {s : State} :
    s.accepts = true ↔
      (s.cmdHeld = true ∨ s.edge.offer = true) ∧ s.stream ≠ [] ∧ s.rst = false ∧ s.inFlight = none ∧
        s.hasRoom = true := by
  simp [State.accepts, State.cmdValid, State.cmdReady, and_assoc]

/-- The pins that decide a response's transfer. -/
theorem State.takes_iff {s : State} :
    s.takes = true ↔ s.rst = false ∧ s.rspBuf ≠ [] ∧ s.edge.rspReady = true := by
  simp [State.takes, State.rspValid, State.rspReady, and_assoc]

/-- While a command is in flight none is accepted. -/
theorem State.accepts_of_inFlight {s : State} {f : Flight} (h : s.inFlight = some f) : s.accepts = false := by
  simp [State.accepts, State.cmdReady, h]

/-- A transfer moves responses from the buffer to the host and loses none. -/
theorem State.transfer_responses (s : State) :
    s.transfer.taken ++ s.transfer.rspBuf = s.taken ++ s.rspBuf := by
  cases h : s.rspBuf <;> by_cases ht : s.takes = true <;> simp [h, ht]

end Sys2Proof.Machine
end

