-- ==== Sys2Proof/Laws/Tables.lean ====
section
/-! SUPPORT. The entries of the two tables a BUILD can build, and what a word's run can do to the block and to the channels. A
proof that cites these never makes Lean compare two 64-entry tables. -/

namespace Sys2Proof.Machine

/-! ### The built tables -/

/-- An entry of the table of BUILD_DEFAULT (R90). -/
theorem toNat_defaultTable (ref : Table Byte) (q : Int) (i : Index) :
    ((defaultTable Config.qtb1 ref q)[i].toNat : Int) =
      8 * newval Config.qtb1 (byteValue ref[i]) (scale (clampQ Config.qtb1 q)) := by
  have h := newval_range (byteValue ref[i]) (scale (clampQ Config.qtb1 q))
  simp only [defaultTable, Fin.getElem_fin, Vector.getElem_ofFn]
  rw [toNat_toStep] <;> simp only [premultiply, Config.qtb1_premul] <;> simp only [Fin.getElem_fin] at h <;> omega

/-- An entry of the table of BUILD_CUSTOM (R95). -/
theorem toNat_customTable (custom : Table Byte) (i : Index) :
    (customTable Config.qtb1 custom)[i].toNat = 8 * max 1 custom[i].toNat := by
  have h := byteValue_range custom[i]
  have hk : ((customTable Config.qtb1 custom)[i].toNat : Int) = 8 * floorOne (byteValue custom[i]) := by
    simp only [customTable, Fin.getElem_fin, Vector.getElem_ofFn]
    rw [toNat_toStep] <;> simp only [premultiply, Config.qtb1_premul, floorOne] <;> simp only [Fin.getElem_fin] at h <;> omega
  simp only [floorOne, byteValue] at hk
  omega

/-- A BUILD's effect with its table named by a variable: the table is the one the command builds (R90, R95), and with the
numbers of R7 every entry is one of a built table. -/
theorem exec_build {i : Instr} (h : IsBuild i) (s : State) :
    ∃ k : Table StepBits, exec i s = .next ((s.writeTable k).respond noResult) ∧ (s.cfg.numbers = Config.qtb1 → ∀ j : Index, StepOk k[j]) ∧
      ((∃ c q, i = .buildDefault c q ∧ k = defaultTable s.cfg.numbers (refTable s.cfg c) q) ∨
        (i = .buildCustom ∧ k = customTable s.cfg.numbers s.custom)) := by
  rcases h with ⟨c, q, rfl⟩ | rfl
  · refine ⟨_, rfl, fun hn j => ?_, .inl ⟨c, q, rfl, rfl⟩⟩
    have := toNat_defaultTable (refTable s.cfg c) q j
    have := newval_range (byteValue (refTable s.cfg c)[j]) (scale (clampQ Config.qtb1 q))
    rw [hn]; unfold StepOk; omega
  · refine ⟨_, rfl, fun hn j => ?_, .inr ⟨rfl, rfl⟩⟩
    have := toNat_customTable s.custom j
    have := s.custom[j].isLt
    rw [hn]; unfold StepOk; omega

/-! ### A word's run -/

/-- What a word that answers can have done, by effect: a BUILD's table, a LOAD_CUSTOM's byte, an answer that writes nothing,
or an error. -/
theorem runWord_effect {w : Word} {s t : State} (h : runWord w s = .next t) :
    (∃ i k, decode w = .ok i ∧ IsBuild i ∧ exec i s = .next t ∧ t = (s.writeTable k).respond noResult ∧
      (s.cfg.numbers = Config.qtb1 → ∀ j : Index, StepOk k[j])) ∨
    (∃ idx byte, decode w = .ok (.loadCustom idx byte) ∧ t = (s.writeCustom idx byte).respond noResult) ∨
    (∃ r : Result, s.built = true ∧ t = s.respond r) ∨
    (∃ st, st ≠ .ok ∧ t = s.raiseError st) := by
  have build : ∀ i, IsBuild i → exec i s = .next t →
      ∃ k : Table StepBits, t = (s.writeTable k).respond noResult ∧
        (s.cfg.numbers = Config.qtb1 → ∀ j : Index, StepOk k[j]) := by
    intro i hb he
    obtain ⟨k, hk, hok, _⟩ := exec_build hb s
    rw [hk] at he
    simp only [Host.Outcome.next.injEq] at he
    exact ⟨k, he.symm, hok⟩
  rcases runWord_cases h with ⟨i, hd, h⟩ | ⟨e, _, rfl⟩
  · by_cases hb : IsBuild i
    · obtain ⟨k, hk, hok⟩ := build i hb h
      exact .inl ⟨i, k, hd, hb, h, hk, hok⟩
    · rcases exec_cases h with ⟨idx, byte, rfl, rfl⟩ | ⟨c, q, rfl, _⟩ | ⟨rfl, _⟩ | ⟨idx, _, hb, rfl⟩ |
        ⟨idx, x, _, hb, _, rfl⟩ | ⟨_, _, rfl⟩
      · exact .inr (.inl ⟨idx, byte, hd, rfl⟩)
      · exact absurd (.inl ⟨c, q, rfl⟩) hb
      · exact absurd (.inr rfl) hb
      · exact .inr (.inr (.inl ⟨_, hb, rfl⟩))
      · exact .inr (.inr (.inl ⟨_, hb, rfl⟩))
      · exact .inr (.inr (.inr ⟨.notBuilt, by simp, rfl⟩))
  · exact .inr (.inr (.inr ⟨errorStatus e, by cases e <;> simp [errorStatus], rfl⟩))

/-- A word's run leaves the host's side, the script, the parameters and the flight's place alone. -/
theorem runWord_frame {w : Word} {s t : State} (h : runWord w s = .next t) :
    t.cfg = s.cfg ∧ t.inFlight = s.inFlight ∧ t.stream = s.stream ∧ t.cmdHeld = s.cmdHeld ∧ t.taken = s.taken ∧
      t.script = s.script ∧ t.resets = s.resets := by
  rcases runWord_effect h with ⟨i, k, _, _, _, rfl, _⟩ | ⟨idx, byte, _, rfl⟩ | ⟨r, _, rfl⟩ | ⟨st, _, rfl⟩ <;> simp

end Sys2Proof.Machine
end

