-- ==== Sys2Proof/Tests/Slice0.lean ====
section
/-! SUPPORT. The model's own tests. Expected results come from the spec: the encodings of R61 and R71 written out bit by
bit, the error vectors of 95_test_vectors.md 2.1, its tables 2.2 to 2.6, and the worked examples of the commands' rules.
Then, for every statement with hypotheses, a witness that meets them. -/

namespace Sys2Proof.Tests

open Sys2Proof.Machine

/-! ### Helpers -/

/-- The answer is a next state of which `p` holds. -/
def nextHolds {nStep w qw cmdW rspW : Nat} (o : Answer nStep w qw cmdW rspW)
    (p : State nStep w qw cmdW rspW → Bool) : Bool :=
  match o with
  | .next t => p t
  | .fault _ => false
  | .refused _ => false

/-- The state after reset but for a built table whose steps are all `k`. -/
def builtAt (k : StepBits) : State := { State.reset with steps := Vector.replicate 64 k, built := true }

/-- `s` with the word `w` in flight, at the edge `e`. -/
def inFlightAt (s : State) (w : Word) (e : Edge) : State :=
  { s with inFlight := some { word := w, age := 0 }, script := [e] }

/-- The edge at which `rst` is 1. -/
def resetPin : Edge := { rst := true, offer := true, rspReady := true, finish := true }

/-- The edge at which nothing is asked for. -/
def idle : Edge := { rst := false, offer := false, rspReady := false, finish := false }

/-! ### Well-formedness: each check refuses an ill-formed term -/

theorem test_wf_refuses_quality_above : (Instr.buildDefault .luma 32768 : Instr).wf = false := by decide
theorem test_wf_refuses_quality_below : (Instr.buildDefault .chroma (-32769) : Instr).wf = false := by decide
theorem test_wf_refuses_value_above : (Instr.quantize 0 32768 : Instr).wf = false := by decide
theorem test_wf_refuses_value_below : (Instr.quantize 63 (-32769) : Instr).wf = false := by decide
theorem test_asm_wf_refuses_operands :
    ∀ l ∈ ([.loadCustom 64 0, .loadCustom (-1) 0, .loadCustom 0 256, .loadCustom 0 (-1), .buildDefault .luma 32768,
      .buildDefault .luma (-32769), .get 64, .get (-1), .quantize 64 0, .quantize (-1) 0, .quantize 0 32768,
      .quantize 0 (-32769), .word 4294967296, .word (-1), .loadCustomTable [1, 2, 3], .buildCustomTable [],
      .loadCustomTable (List.replicate 64 256), .buildCustomTable (List.replicate 64 (-1))] : List AsmLine),
      l.wf = false := by decide

/-! ### Decoding: words written out from the encodings of R61 and R71 -/

theorem test_decode_load_custom :
    decode 0b00000000101101010000001100110001#32 = .ok (.loadCustom 51 0xB5#8) := by decide
theorem test_decode_build_default_luma :
    decode 0b10000000000000010000000000010010#32 = .ok (.buildDefault .luma (-32767)) := by decide
theorem test_decode_build_default_chroma :
    decode 0b00000000010010110000000000000010#32 = .ok (.buildDefault .chroma 75) := by decide
theorem test_decode_build_custom : decode 0b00000000000000000000000000000011#32 = .ok .buildCustom := by decide
theorem test_decode_get : decode 0b00000000000000000000001010100100#32 = .ok (.get 42) := by decide
theorem test_decode_quantize :
    decode 0b11111110110101000000000000010101#32 = .ok (.quantize 1 (-300)) := by decide

/-- 95_test_vectors.md 2.1: the words that name no command, with their error. -/
theorem test_decode_refuses_reserved :
    ([0x00000000, 0x0000000F, 0x00000006, 0x00000410].map fun (w : Word) => decode w) =
      List.replicate 4 (.error .illegalOp) ∧
    ([0x00010004, 0x00008012, 0x00000013, 0x01000001, 0x00000405].map fun (w : Word) => decode w) =
      List.replicate 5 (.error .reservedField) := by decide

/-- No two rows of the opcode map match the same word: each pair differs in a bit both masks hold. -/
theorem test_rows_do_not_overlap :
    Opcode.rows.Pairwise fun a b => (a.rowMatch ^^^ b.rowMatch) &&& a.rowMask &&& b.rowMask ≠ 0#32 := by decide

/-- R7: the widths are arguments. By hand from R61 with a 64-bit command, a 32-bit VALUE in its upper half, and a 24-bit
result in a 40-bit response. -/
theorem test_widths_are_arguments :
    encode (.quantize 3 100000 : Instr) 64 32 32 = 0x000186A000000035#64 ∧
      decode 0x000186A000000035#64 32 32 = .ok (.quantize 3 100000) ∧
      (Instr.quantize 3 100000 : Instr).wf = false ∧ (Instr.quantize 3 100000 : Instr).wf 32 32 = true ∧
      responseWord .notBuilt (noResult 24) 40 = 0x0300000000#40 := by decide

/-- A block with 4 entries, 32-bit coefficients and qualities, 64-bit commands and 48-bit responses, its steps all 128. -/
def otherBlock : State 4 32 32 64 48 :=
  { State.resetWith
      { numbers := Config.qtb1, lumaRef := Vector.replicate 4 1#8, chromaRef := Vector.replicate 4 1#8, rspDepth := 1
        latOp := 1, latBuild := 1 } with
    steps := Vector.replicate 4 128#11
    built := true
    inFlight := some { word := 0x000186A000000035#64, age := 0 } }

/-- R7: a whole edge of a block of other sizes. By hand from R105: 100000 by 128 is 781.25, so 781. -/
theorem test_edge_of_a_block_of_other_sizes :
    nextHolds (clockEdge otherBlock) (fun t => t.rspBuf = [0x00000000030D#48]) = true := by decide

theorem test_table_word : decodeTableWord 32 0x000003F4 = some (.get 63) ∧ decodeTableWord 32 0 = none := by decide

/-! ### Arithmetic (95_test_vectors.md 2.2, 2.3, 2.5, 2.6) -/

theorem test_clampQ :
    ([-32768, -1, 0, 1, 50, 100, 101, 255, 32767].map (clampQ Config.qtb1)) = [1, 1, 1, 1, 50, 100, 100, 100, 100] := by decide

theorem test_scale_below_fifty :
    ((List.range 49).map fun n => scale ((n : Int) + 1)) =
      [5000, 2500, 1666, 1250, 1000, 833, 714, 625, 555, 500] ++ [454, 416, 384, 357, 333, 312, 294, 277, 263, 250] ++
      [238, 227, 217, 208, 200, 192, 185, 178, 172, 166] ++ [161, 156, 151, 147, 142, 138, 135, 131, 128, 125] ++
      [121, 119, 116, 113, 111, 108, 106, 104, 102] := by decide

theorem test_scale_from_fifty :
    ([50, 51, 60, 61, 75, 90, 91, 99, 100].map scale) = [100, 98, 80, 78, 50, 20, 18, 2, 0] := by decide

theorem test_newval :
    ([1, 2, 10, 25, 49, 50, 51, 75, 99, 100].map fun q => newval Config.qtb1 99 (scale q)) =
      [255, 255, 255, 198, 101, 99, 97, 50, 2, 1] ∧
    ([1, 2, 10, 25, 49, 50, 51, 75, 99, 100].map fun q => newval Config.qtb1 255 (scale q)) =
      [255, 255, 255, 255, 255, 255, 250, 128, 5, 1] ∧
    newval Config.qtb1 10 50 = 5 ∧ newval Config.qtb1 5 5000 = 250 ∧ newval Config.qtb1 6 5000 = 255 ∧
      newval Config.qtb1 1 0 = 1 := by decide

theorem test_rounded_quotient :
    ([4, -4, 3, -3, 12, -12, 20, -20, 32767, -32768].map fun x => roundedQuotient x 8) =
      [1, -1, 0, 0, 2, -2, 3, -3, 4096, -4096] ∧
    ([1020, -1020, 1019, 2039, 32767, -32768].map fun x => roundedQuotient x 2040) = [1, -1, 0, 1, 16, -16] := by decide

/-- 95_test_vectors.md 2.4: rows 0 and 7 of LUMA q=75 and rows 0 and 3 of CHROMA q=10, as GET answers them. -/
theorem test_default_tables :
    ([0, 1, 2, 3, 4, 5, 6, 7, 56, 57, 58, 59, 60, 61, 62, 63].map fun i : Index =>
      unscaled Config.qtb1 (stepValue (defaultTable Config.qtb1 Config.defaultLuma 75)[i])) =
      [8, 6, 5, 8, 12, 20, 26, 31, 36, 46, 48, 49, 56, 50, 52, 50] ∧
    ([0, 1, 2, 3, 4, 24, 25, 26].map fun i : Index =>
      unscaled Config.qtb1 (stepValue (defaultTable Config.qtb1 Config.defaultChroma 10)[i])) =
      [85, 90, 120, 235, 255, 235, 255, 255] := by decide

/-! ### One step per command -/

/-- R85's example: LOAD_CUSTOM 5, 0 answers 0x00000000; here with a byte that shows. -/
theorem test_load_custom :
    nextHolds (step (State.reset.withFetchWord 32 0x00C80051)) fun t =>
      t.custom[5] == 200#8 && t.custom[0] == 0#8 && !t.built && t.rspBuf == [0x00000000#32] := by decide

/-- R90's example: BUILD_DEFAULT luma, 50 with the default LUMA_REF gives STEP[0] = 128 (Annex K). -/
theorem test_build_default :
    nextHolds (step (State.reset.withFetchWord 32 0x00320012)) fun t =>
      t.steps[0] == 128#11 && t.steps[63] == 792#11 && t.built && t.rspBuf == [0x00000000#32] := by decide

/-- 95_test_vectors.md 2.5: an entry of 200 gives 1600, an entry never loaded gives 8. -/
theorem test_build_custom :
    nextHolds (step ({ State.reset with custom := (Vector.replicate 64 0#8).set 0 200#8 }.withFetchWord 32 3)) fun t =>
      t.steps[0] == 1600#11 && t.steps[5] == 8#11 && t.built && t.custom[0] == 200#8 := by decide

theorem test_get :
    nextHolds (step ((builtAt 2040#11).withFetchWord 32 0x000003F4)) fun t => t.rspBuf == [0x000000FF#32] := by decide

theorem test_get_not_built :
    nextHolds (step (State.reset.withFetchWord 32 0x00000004)) fun t =>
      t.rspBuf == [0x03000000#32] && t.faultRecord == [.notBuilt] := by decide

/-- R105's example: with STEP[0] = 128, QUANTIZE 0, -300 answers 0x0000FFFE. -/
theorem test_quantize :
    nextHolds (step ((builtAt 128#11).withFetchWord 32 0xFED40005)) fun t => t.rspBuf == [0x0000FFFE#32] := by decide

/-- 95_test_vectors.md 2.6: `q = 8, x = -32768` answers 0x0000F000. -/
theorem test_quantize_most_negative :
    nextHolds (step ((builtAt 8#11).withFetchWord 32 0x80000005)) fun t => t.rspBuf == [0x0000F000#32] := by decide

/-- 95_test_vectors.md 2.1: RESERVED_FIELD outranks NOT_BUILT, and opcode 0 is ILLEGAL_OP. -/
theorem test_error_words :
    nextHolds (step (State.reset.withFetchWord 32 0x00010004)) (fun t => t.rspBuf == [0x02000000#32]) = true ∧
    nextHolds (step (State.reset.withFetchWord 32 0x00000410)) (fun t => t.rspBuf == [0x01000000#32]) = true := by decide

/-! ### The channels -/

/-- R147: the command is accepted where `cmd_valid` and `cmd_ready` are 1. -/
theorem test_accept :
    nextHolds (step (State.reset.withStream [4#32, 3#32])) fun t =>
      t.stream == [3#32] && t.inFlight == some { word := 4#32, age := 0 } && !t.cmdHeld := by decide

/-- R141: an edge with `rst = 1` abandons the command in flight and discards the response waiting. -/
theorem test_reset_edge :
    nextHolds (step { inFlightAt (builtAt 8#11) 3#32 resetPin with rspBuf := [5#32] }) fun t =>
      !t.built && t.inFlight == none && t.rspBuf == [] := by decide

/-- R150: a full buffer accepts no command, and the host holds it. -/
theorem test_full_buffer :
    nextHolds (step { State.reset with rspBuf := [0#32], stream := [3#32], script := [{ idle with offer := true }] }) fun t =>
      t.stream == [3#32] && t.inFlight == none && t.cmdHeld := by decide

/-! ### The assembler (R71, R72) -/

theorem test_assembler_text :
    Asm.assembleText "BUILD_DEFAULT luma, -1" = some [0xFFFF0012#32] ∧
    Asm.assembleText "LOAD_CUSTOM 0x05, 0" = some [0x00000051#32] ∧
    Asm.assembleText "QUANTIZE 63, 32767" = some [0x7FFF03F5#32] ∧
    Asm.assembleText "BUILD_CUSTOM" = some [0x00000003#32] ∧
    Asm.assembleText ".word 0x00010004" = some [0x00010004#32] ∧
    Asm.assembleText "GET 64" = none := by decide

theorem test_assembler_table :
    (Asm.assembleText "GET_TABLE").map (fun ws => (ws.length, ws[5]?)) = some (64, some 0x00000054#32) := by decide

/-! ### Witnesses: a concrete case that meets the hypotheses of each statement -/

theorem default_wf : Config.default.WF :=
  { numbers := rfl, luma := by decide, chroma := by decide, depth := by decide, latOp := by decide, latBuild := by decide }

/-- A built table of equal steps, with the host's stream, meets the invariant. -/
theorem streamAt_inv {k : StepBits} (hk : StepOk k) (ws : List Word) : Inv ((builtAt k).withStream ws) :=
  { cfg := default_wf
    table := fun _ i => by simpa [State.withStream, builtAt] using hk
    buffer := by simp [State.withStream, builtAt, State.reset, State.resetWith]
    flight := by simp [State.withStream, builtAt, State.reset, State.resetWith]
    responses := by simp [State.withStream, builtAt, State.reset, State.resetWith] }

/-- A built table of equal steps, with a word in flight, meets the invariant. -/
theorem builtAt_inv {k : StepBits} (hk : StepOk k) (w : Word) (e : Edge) : Inv (inFlightAt (builtAt k) w e) :=
  { cfg := default_wf
    table := fun _ i => by simpa [inFlightAt, builtAt] using hk
    buffer := by simp [inFlightAt, builtAt, State.reset, State.resetWith]
    flight := fun _ => by simp [inFlightAt, builtAt, State.reset, State.resetWith, State.hasRoom, Config.default]
    responses := by simp [inFlightAt, builtAt, State.reset, State.resetWith] }

/-- A built table with a full response buffer and a command offered meets the invariant. -/
def fullState (e : Edge) : State := { builtAt 8#11 with rspBuf := [0#32], stream := [3#32], script := [e] }

theorem fullState_inv (e : Edge) : Inv (fullState e) :=
  { cfg := default_wf
    table := fun _ i => by simp [fullState, builtAt]; decide
    buffer := by simp [fullState, builtAt, State.reset, State.resetWith, Config.default]
    flight := by simp [fullState, builtAt, State.reset, State.resetWith]
    responses := by simp [fullState, builtAt, State.reset, State.resetWith]; decide }

theorem witness_DecodeOfEncode :
    (Instr.buildDefault .chroma 32767 : Instr).wf = true ∧ (Instr.quantize 63 (-32768) : Instr).wf = true ∧
      (Instr.loadCustom 63 255#8 : Instr).wf = true := by decide

theorem witness_EncodeOfDecode : decode 0x7FFF03F5#32 = .ok (.quantize 63 32767) := by decide

theorem witness_WordIsTheCommand :
    (0x00010004#32 &&& 0xFFFFFC0F#32 ≠ 0x00000004#32 ∧ decode 0x00010004#32 = .error .reservedField) ∧
      decode 0x0000000F#32 = .error .illegalOp ∧ decode 0x00000006#32 = .error .illegalOp ∧
      0x00FF03F1#32 &&& 0xFF00FC0F#32 = 0x00000001#32 ∧ 0xFFFF0012#32 &&& 0x0000FFEF#32 = 0x00000002#32 ∧
      0x000003F4#32 &&& 0xFFFFFC0F#32 = 0x00000004#32 ∧ 0x7FFF03F5#32 &&& 0x0000FC0F#32 = 0x00000005#32 := by decide

/-- One word per clause: opcodes 0, 6 and 15; a reserved bit of each opcode; GET and QUANTIZE with BUILT = 0 and 1. -/
theorem witness_ErrorCauses :
    ([0x00000000#32, 0x00000006#32, 0x0000000F#32].map fun w => (w.extractLsb' 0 4).toNat) = [0, 6, 15] ∧
    ([0x00000401#32, 0x00000022#32, 0x00000013#32, 0x00010004#32, 0x00008005#32].map fun w =>
      decide (reservedBitsOf w ≠ 0#32)) = List.replicate 5 true ∧
    ([0x000003F4#32, 0xFFFF03F5#32].map reservedBitsOf) = [0#32, 0#32] ∧
    State.reset.built = false ∧ (builtAt 8#11).built = true := by decide

theorem witness_ReadsBeforeABuild :
    State.reset.built = false ∧
      nextHolds (exec (.get 63) State.reset) (fun t => t.rspBuf == State.reset.rspBuf ++ [0x03000000#32]) = true := by decide

theorem witness_ErrorResponse :
    nextHolds (runWord 0x0000000F#32 State.reset) (fun t =>
      t.rspBuf == [0x01000000#32] && nextHolds (runWord 0x00C80001#32 t) fun u => u.custom[0] == 200#8) = true := by decide

theorem witness_EveryWordAnswers :
    nextHolds (runWord 0x00010004#32 State.reset) (fun t => t.rspBuf == [0x02000000#32]) = true := by decide

theorem witness_LoadCustomWords :
    (0x00FF03F1#32).extractLsb' 0 4 = 0x1#4 ∧ 0x00FF03F1#32 &&& 0xFF00FC00#32 = 0#32 ∧
      (0x01000001#32).extractLsb' 0 4 = 0x1#4 ∧ 0x01000001#32 &&& 0xFF00FC00#32 ≠ 0#32 := by decide

theorem witness_BuildDefaultWords :
    (0x80000012#32).extractLsb' 0 4 = 0x2#4 ∧ 0x80000012#32 &&& 0x0000FFE0#32 = 0#32 ∧
      (0x00008012#32).extractLsb' 0 4 = 0x2#4 ∧ 0x00008012#32 &&& 0x0000FFE0#32 ≠ 0#32 := by decide

theorem witness_BuildCustomWords :
    (0x00000003#32).extractLsb' 0 4 = 0x3#4 ∧ 0x00000003#32 &&& 0xFFFFFFF0#32 = 0#32 ∧
      (0x00000013#32).extractLsb' 0 4 = 0x3#4 ∧ 0x00000013#32 &&& 0xFFFFFFF0#32 ≠ 0#32 := by decide

theorem witness_Get :
    (builtAt 8#11).built = true ∧ (0x000003F4#32).extractLsb' 0 4 = 0x4#4 ∧ 0x000003F4#32 &&& 0xFFFFFC00#32 = 0#32 ∧
      State.reset.built = false ∧ 0x00010004#32 &&& 0xFFFFFC00#32 ≠ 0#32 := by decide

theorem witness_Quantize :
    (builtAt 2040#11).built = true ∧ StepOk (builtAt 2040#11).steps[63] ∧ StepOk (builtAt 8#11).steps[0] ∧
      IsS16 (-32768) ∧ IsS16 32767 ∧ (0x7FFF03F5#32).extractLsb' 0 4 = 0x5#4 ∧
      0x7FFF03F5#32 &&& 0x0000FC00#32 = 0#32 ∧ 0x00000405#32 &&& 0x0000FC00#32 ≠ 0#32 := by decide

theorem witness_OnlyQuantizeStops :
    (builtAt 0#11).built = true ∧ (builtAt 0#11).steps[3] = 0#11 ∧
      (match exec (.quantize 3 5) (builtAt 0#11) with | .fault r => decide (r = .zeroDivisor) | _ => false) = true := by
  decide

theorem witness_ReadsArePure :
    nextHolds (exec (.loadCustom 2 9#8) (builtAt 16#11)) (fun t =>
      nextHolds (exec (.quantize 1 24) (builtAt 16#11)) (fun u => u.rspBuf == [2#32]) &&
      nextHolds (exec (.quantize 1 24) t) fun v => v.rspBuf == [0#32, 2#32]) = true ∧
    nextHolds (exec (.get 0) State.reset) (fun t => t.rspBuf == [0x03000000#32]) = true ∧
    nextHolds (exec .buildCustom State.reset) (fun t =>
      nextHolds (exec .buildCustom t) fun u => u.steps == t.steps) = true := by decide

/-- A step that changes STEP and sets BUILT, with a BUILD in flight. -/
theorem witness_StepTableChanges :
    (inFlightAt State.reset 3#32 Edge.eager).rst = false ∧
      nextHolds (step (inFlightAt State.reset 3#32 Edge.eager)) (fun t =>
        decide (t.steps ≠ State.reset.steps) && t.built) = true ∧
      (Vector.replicate 64 8#11)[5] = (builtAt 8#11).steps[5] ∧
      nextHolds (exec (.get 5) (builtAt 8#11)) (fun _ => true) = true := by decide

/-- A build by BUILD_DEFAULT, for the statements about either BUILD. -/
theorem witness_IsBuild : IsBuild .buildCustom ∧ IsBuild (.buildDefault .luma (-32768)) := ⟨.inr rfl, .inl ⟨_, _, rfl⟩⟩

theorem witness_BuiltChanges :
    nextHolds (step (inFlightAt State.reset 0x00320012#32 Edge.eager)) (fun t => t.built) = true ∧
      nextHolds (step { builtAt 8#11 with script := [resetPin] }) (fun t => !t.built) = true ∧
      nextHolds (step (builtAt 8#11)) (fun t => t.built) = true := by decide

theorem witness_StagingFileChanges :
    nextHolds (step (inFlightAt State.reset 0x00C80051#32 Edge.eager)) (fun t =>
      decide (t.custom ≠ State.reset.custom)) = true := by decide

theorem witness_OnlyBuildCustomReads :
    nextHolds (runWord 0x00320012#32 State.reset) (fun t => t.built) = true ∧
      decode 0x00320012#32 ≠ .ok .buildCustom := by decide

/-- A run in which a GET is refused and a BUILD follows, whatever STEP holds at its start. -/
theorem witness_StepTableUnobservable :
    State.reset.built = false ∧
      (State.predicted { State.reset with steps := Vector.replicate 64 9#11, stream := [4#32, 3#32, 4#32] }).map
        (fun o => o.responses) = some [0x03000000#32, 0#32, 1#32] := by decide

theorem witness_ParametersKept : nextHolds (step State.reset) (fun t => t.cfg == State.reset.cfg) = true := by decide

/-- The numbers of R7, for the statements that ask for them. -/
theorem witness_Numbers : State.reset.cfg.numbers = Config.qtb1 ∧ (builtAt 8#11).cfg.numbers = Config.qtb1 := by decide

theorem witness_QualityHundred :
    State.reset.cfg.numbers = Config.qtb1 ∧ (100 : Int) ≤ 100 ∧ (100 : Int) ≤ 32767 := by decide

theorem witness_QualityFifty : State.reset.cfg.WF := default_wf

theorem witness_QualityOrder :
    State.reset.cfg.numbers = Config.qtb1 ∧ (-32768 : Int) ≤ 32767 ∧ (49 : Int) ≤ 50 := by decide

/-- Two states that agree on a reference table and differ in the step table and BUILT. -/
theorem witness_BuildDependsOnly :
    State.reset.cfg.numbers = (builtAt 8#11).cfg.numbers ∧
      (∀ i : Index, State.reset.refByte .chroma i = (builtAt 8#11).refByte .chroma i) ∧
      State.reset.custom = (builtAt 8#11).custom ∧ State.reset.steps ≠ (builtAt 8#11).steps := by decide

theorem witness_SignSymmetric :
    (builtAt 8#11).built = true ∧ StepOk (builtAt 8#11).steps[0] ∧ (-32767 : Int) ≤ -32767 ∧ (-32767 : Int) ≤ 32767 := by
  decide

theorem witness_StepEight :
    (builtAt 8#11).built = true ∧ (builtAt 8#11).steps[63] = 8#11 ∧ (-4096 : Int) ≤ -4096 ∧ (-4096 : Int) ≤ 4095 := by
  decide

theorem witness_ResetEdge : (inFlightAt (builtAt 8#11) 3#32 resetPin).rst = true := by decide

/-- A reset edge at which the host presents a command, which it still presents after it. -/
theorem witness_ResetEdgeMovesNothing :
    ({ State.reset with stream := [3#32], script := [resetPin] } : State).rst = true ∧
      ({ State.reset with stream := [3#32], script := [resetPin] } : State).cmdValid = true ∧
      nextHolds (step { State.reset with stream := [3#32], script := [resetPin] }) (fun t => t.stream == [3#32]) = true := by
  decide

/-- A BUILD of either kind and a coefficient, for the commands that follow it. -/
theorem witness_NoHazard :
    State.reset.cfg.numbers = Config.qtb1 ∧ IsBuild (.buildDefault .chroma 75) ∧ IsBuild .buildCustom ∧ IsS16 (-32768) :=
  ⟨by decide, .inl ⟨_, _, rfl⟩, .inr rfl, by decide⟩

/-- An edge at which a command is accepted and a response taken, and one at which both sides wait. -/
def busy (e : Edge) : State :=
  { State.reset with
    cfg := { Config.default with rspDepth := 2 }, rspBuf := [7#32], stream := [3#32], script := [e] }

theorem witness_Transfers :
    (busy Edge.eager).rst = false ∧ (busy Edge.eager).cmdValid = true ∧ (busy Edge.eager).cmdReady = true ∧
      (busy Edge.eager).rspValid = true ∧ (busy Edge.eager).rspReady = true ∧
      nextHolds (step (busy Edge.eager)) (fun t => t.taken == [7#32] && t.stream == []) = true ∧
      nextHolds (step (busy idle)) (fun t => t.taken == [] && t.stream == [3#32] && t.rspValid && !t.rst) = true ∧
      nextHolds (step (fullState { idle with offer := true })) (fun t => t.cmdValid && t.stream == [3#32]) = true := by
  decide

theorem witness_FullBuffer :
    Inv (fullState Edge.eager) ∧ nextHolds (step (fullState Edge.eager)) (fun _ => true) = true ∧
      (fullState Edge.eager).rspBuf.length = (fullState Edge.eager).cfg.rspDepth :=
  ⟨fullState_inv _, by decide, by decide⟩

theorem witness_ResponsesGrow :
    nextHolds (step (inFlightAt (builtAt 8#11) 4#32 Edge.eager)) (fun t => t.inFlight == none && t.rspBuf == [1#32]) = true ∧
      nextHolds (step (busy idle)) (fun t => t.rspBuf == [7#32]) = true := by decide

/-- A command accepted, and one in flight that is answered at the edge. -/
theorem witness_AtMostOne :
    (busy Edge.eager).cmdReady = true ∧ (busy Edge.eager).cmdData = some 3#32 ∧
      nextHolds (step (busy Edge.eager)) (fun t => t.inFlight == some { word := 3#32, age := 0 }) = true ∧
      nextHolds (step (inFlightAt (builtAt 8#11) 4#32 idle)) (fun t => t.inFlight == none) = true := by decide

/-- A BUILD and a GET in flight, under a schedule in which the block takes the whole of its latency. -/
theorem witness_Latency :
    Inv (inFlightAt (builtAt 8#11) 3#32 idle) ∧ Inv (inFlightAt (builtAt 8#11) 4#32 idle) ∧
      (∀ e ∈ [idle].take 1, e.rst = false) ∧ decode 3#32 = .ok .buildCustom ∧ decode 4#32 = .ok (.get 0) ∧
      State.reset.inFlight = none ∧ nextHolds (step (State.reset.withStream [4#32])) (fun t => t.inFlight != none) = true :=
  ⟨builtAt_inv (by decide) _ _, builtAt_inv (by decide) _ _, by decide, by decide, by decide, by decide, by decide⟩

theorem witness_FaultRecord :
    nextHolds (step (inFlightAt State.reset 0#32 Edge.eager)) (fun t => t.faultRecord == [.illegalOp]) = true ∧
      nextHolds (step { State.reset with faultRecord := [.notBuilt], script := [resetPin] })
        (fun t => t.faultRecord == [.notBuilt]) = true ∧
      nextHolds (step (inFlightAt State.reset 3#32 Edge.eager)) (fun t => t.faultRecord == []) = true := by decide

/-- A word that decodes and one that does not, each answered at the coming edge; and a word placed in a full state. -/
theorem witness_StepRuns :
    (inFlightAt State.reset 3#32 Edge.quiet).rst = false ∧
      (inFlightAt State.reset 3#32 Edge.quiet).completes { word := 3#32, age := 0 } = true ∧
      decode 3#32 = .ok .buildCustom ∧ decode 0#32 = .error .illegalOp ∧
      (inFlightAt State.reset 0#32 Edge.quiet).completes { word := 0#32, age := 0 } = true ∧
      1 ≤ (fullState idle).cfg.rspDepth ∧
      nextHolds (step ((fullState idle).withFetchWord 32 0x00000004)) (fun t => t.taken == [0#32] && t.rspBuf == [1#32]) = true := by
  decide

theorem witness_StepTableInvariant :
    (builtAt 2040#11).cfg.numbers = Config.qtb1 ∧ (∀ i : Index, ∃ k : Nat, 1 ≤ k ∧ k ≤ 255 ∧ (builtAt 2040#11).steps[i].toNat = 8 * k) ∧
      nextHolds (step (builtAt 2040#11)) (fun t => t.built) = true :=
  ⟨by decide, fun i => ⟨255, by decide, by decide, by simp [builtAt]⟩, by decide⟩

theorem witness_Invariant :
    Inv (inFlightAt (builtAt 2040#11) 0x7FFF0005#32 Edge.eager) ∧
      nextHolds (step (inFlightAt (builtAt 2040#11) 0x7FFF0005#32 Edge.eager)) (fun t => t.rspBuf == [16#32]) = true :=
  ⟨builtAt_inv (by decide) _ _, by decide⟩

theorem witness_NoSchedule :
    (busy Edge.eager).rst = false ∧ nextHolds (step (busy Edge.eager)) (fun t =>
      decide (t.predicted = (busy Edge.eager).predicted) && decide (t.predicted ≠ none)) = true := by decide

theorem witness_FairEdge :
    Inv (fullState Edge.eager) ∧ (fullState Edge.eager).rst = false ∧ (fullState Edge.eager).edge.offer = true ∧
      (fullState Edge.eager).rspReady = true ∧ (fullState Edge.eager).edge.finish = true ∧
      (fullState Edge.eager).hasRoom = false ∧ nextHolds (step (fullState Edge.eager)) (fun t => t.work == 3) = true :=
  ⟨fullState_inv _, by decide, by decide, by decide, by decide, by decide, by decide⟩

theorem witness_EveryStream :
    Inv ((builtAt 8#11).withStream [0x00C80001#32, 0x00000003#32, 0x00000004#32]) ∧
      Inv (inFlightAt (builtAt 8#11) 4#32 idle) ∧ (inFlightAt (builtAt 8#11) 4#32 idle).script = [idle] ∧
      ∀ e ∈ [idle], e.rst = false :=
  ⟨streamAt_inv (by decide) _, builtAt_inv (by decide) _ _, rfl, by decide⟩

theorem witness_PseudoCommands :
    (List.replicate 64 (255 : Int)).length = 64 ∧ ∀ b ∈ List.replicate 64 (255 : Int), IsByte b := by decide

end Sys2Proof.Tests
end

section
/-! PROOFS of the family 00_scope: what GET and QUANTIZE answer in each case of BUILT and of the step, the commands that
stop, and the parameters of this hardware. -/

namespace Sys2Proof.Machine

/-! ### GET and QUANTIZE, a case each -/

/-- GET on a built table answers the unscaled step (R100). -/
theorem exec_get_of_built {s : State} (hb : s.built = true) (idx : Index) :
    exec (.get idx) s = .next (s.respond (toUnsigned (unscaled s.cfg.numbers (stepValue s.steps[idx])))) := by
  simp only [exec, execGet, requireBuilt_of_built hb]

/-- GET before a BUILD answers NOT_BUILT (R124). -/
theorem exec_get_of_not_built {s : State} (hb : s.built = false) (idx : Index) :
    exec (.get idx) s = .next (s.raiseError .notBuilt) := by
  simp only [exec, execGet, requireBuilt_of_not_built hb]

/-- QUANTIZE by a step that is not zero answers the rounded quotient (R105). -/
theorem exec_quantize_of_step_ne_zero {s : State} {idx : Index} (hb : s.built = true) (hk : s.steps[idx] ≠ 0#11)
    (x : Int) :
    exec (.quantize idx x) s = .next (s.respond (toSigned (roundedQuotient x (stepValue s.steps[idx])))) := by
  simp only [exec, execQuantize, requireBuilt_of_built hb, if_neg hk]

/-- QUANTIZE by a zero step under BUILT = 1 stops (entry 11). -/
theorem exec_quantize_of_step_zero {s : State} {idx : Index} (hb : s.built = true) (hk : s.steps[idx] = 0#11)
    (x : Int) : exec (.quantize idx x) s = .fault .zeroDivisor := by
  simp only [exec, execQuantize, requireBuilt_of_built hb, if_pos hk]

/-- QUANTIZE before a BUILD answers NOT_BUILT, whatever STEP holds (R124). -/
theorem exec_quantize_of_not_built {s : State} (hb : s.built = false) (idx : Index) (x : Int) :
    exec (.quantize idx x) s = .next (s.raiseError .notBuilt) := by
  simp only [exec, execQuantize, requireBuilt_of_not_built hb]

/-! ### Which commands stop -/

/-- A command that is no QUANTIZE by a zero step of a built table answers a next state. -/
theorem exec_next_of_no_zero_divisor {s : State} {i : Instr}
    (h : ∀ idx x, i = .quantize idx x → s.built = true → s.steps[idx] ≠ 0#11) : ∃ t, exec i s = .next t := by
  cases i with
  | loadCustom idx byte => exact ⟨_, rfl⟩
  | buildDefault c q => exact ⟨_, rfl⟩
  | buildCustom => exact ⟨_, rfl⟩
  | get idx =>
    cases hb : s.built with
    | true => exact ⟨_, exec_get_of_built hb idx⟩
    | false => exact ⟨_, exec_get_of_not_built hb idx⟩
  | quantize idx x =>
    cases hb : s.built with
    | true => exact ⟨_, exec_quantize_of_step_ne_zero hb (h idx x rfl hb) x⟩
    | false => exact ⟨_, exec_quantize_of_not_built hb idx x⟩

/-! ### The reference bytes -/

/-- The reference bytes of a block with parameters R7 and R27 allow are at least 1. -/
theorem State.one_le_refByte {s : State} (h : s.cfg.WF) (c : Channel) (i : Index) : 1 ≤ (s.refByte c i).toNat := by
  have hne : s.refByte c i ≠ 0 := by
    cases c with
    | luma => exact h.luma i
    | chroma => exact h.chroma i
  exact Nat.one_le_iff_ne_zero.mpr fun h0 => hne (BitVec.eq_of_toNat_eq h0)

end Sys2Proof.Machine

open Sys2Proof Sys2Proof.Machine

/-- Settles O14: either the command is a QUANTIZE by a zero step of a built table, or every case of the command has an
answer. -/
theorem onlyQuantizeByAZeroStepStops : Obligations.OnlyQuantizeByAZeroStepStops := by
  intro s i
  by_cases h : ∀ idx x, i = .quantize idx x → s.built = true → s.steps[idx] ≠ 0#11
  · exact .inr ⟨h, exec_next_of_no_zero_divisor h⟩
  · push Not at h
    obtain ⟨idx, x, rfl, hb, hk⟩ := h
    exact .inl ⟨idx, x, rfl, hb, hk, exec_quantize_of_step_zero hb hk x⟩

/-- Settles O37: the sizes, widths and numbers are read off their definitions; the reference bytes and the depth follow
from the parameters being ones R7 and R27 allow. -/
theorem parametersTakeTheValuesOfThisHardware : Obligations.ParametersTakeTheValuesOfThisHardware := by
  have hwf : State.reset.cfg.WF := Tests.default_wf
  have hluma : State.reset.refByte .luma 0 = 16#8 := by decide
  exact ⟨rfl, rfl, rfl, rfl, rfl, hwf.numbers, State.one_le_refByte hwf, hluma, hwf.depth⟩

end

section
/-! PROOFS of the family 10_state: who writes and who reads STEP, CUSTOM and BUILT, the invariant of the machine, and the
command in flight. -/

namespace Sys2Proof.Machine

/-! ### Commands: what each one reads -/

/-- A step is one of a built table exactly when it is `8 * k` with `k` in 1..255 (R21). -/
theorem stepOk_iff {q : StepBits} : StepOk q ↔ ∃ k : Nat, 1 ≤ k ∧ k ≤ 255 ∧ q.toNat = 8 * k := by
  constructor
  · rintro ⟨hlo, hhi, hmod⟩
    exact ⟨q.toNat / 8, by omega, by omega, by omega⟩
  · rintro ⟨k, hlo, hhi, hq⟩
    unfold StepOk
    omega

/-- A BUILD writes the same table from every state with the same parameters and, for BUILD_CUSTOM, the same CUSTOM, whatever
STEP holds there (R23, R46). -/
theorem exec_build_of_same_inputs {i : Instr} (hi : IsBuild i) (s : State) :
    ∃ k : Table StepBits, (s.cfg.numbers = Config.qtb1 → ∀ j : Index, StepOk k[j]) ∧
      ∀ u : State, u.cfg = s.cfg → (i = .buildCustom → u.custom = s.custom) →
        exec i u = .next ((u.writeTable k).respond noResult) := by
  obtain ⟨k, _, hok, ⟨c, q, rfl, hk⟩ | ⟨rfl, hk⟩⟩ := exec_build hi s
  · refine ⟨k, hok, fun u hcfg _ => ?_⟩
    rw [hk, ← hcfg]
    rfl
  · refine ⟨k, hok, fun u hcfg hcustom => ?_⟩
    rw [hk, ← hcfg, ← hcustom rfl]
    rfl

/-- A command is a BUILD, a LOAD_CUSTOM, or one that reads a step. -/
theorem instr_kinds (i : Instr) :
    IsBuild i ∨ (∃ idx byte, i = .loadCustom idx byte) ∨ ∃ idx x, i = .get idx ∨ i = .quantize idx x := by
  cases i with
  | loadCustom idx byte => exact .inr (.inl ⟨idx, byte, rfl⟩)
  | buildDefault c q => exact .inl (.inl ⟨c, q, rfl⟩)
  | buildCustom => exact .inl (.inr rfl)
  | get idx => exact .inr (.inr ⟨idx, 0, .inl rfl⟩)
  | quantize idx x => exact .inr (.inr ⟨idx, x, .inr rfl⟩)

/-- GET and QUANTIZE before a BUILD answer NOT_BUILT (R124). -/
theorem exec_read_of_not_built {i : Instr} {idx : Index} {x : Int} (hi : i = .get idx ∨ i = .quantize idx x)
    {s : State} (hb : s.built = false) : exec i s = .next (s.raiseError .notBuilt) := by
  rcases hi with rfl | rfl
  · exact exec_get_of_not_built hb idx
  · exact exec_quantize_of_not_built hb idx x

/-- GET and QUANTIZE on a built table read the parameters and the entry they name: they answer the same result from every
state in which these are the same. -/
theorem exec_read_of_built {i : Instr} {idx : Index} {x : Int} (hi : i = .get idx ∨ i = .quantize idx x) {s t : State}
    (hb : s.built = true) (h : exec i s = .next t) :
    ∃ r : Result, ∀ u : State, u.built = true → u.cfg = s.cfg → u.steps[idx] = s.steps[idx] →
      exec i u = .next (u.respond r) := by
  rcases hi with rfl | rfl
  · exact ⟨_, fun u hu hcfg hk => by rw [exec_get_of_built hu, hcfg, hk]⟩
  · have hne : s.steps[idx] ≠ 0#11 := by
      intro h0
      rw [exec_quantize_of_step_zero hb h0] at h
      cases h
    exact ⟨_, fun u hu _ hk => by rw [exec_quantize_of_step_ne_zero hu (hk ▸ hne), hk]⟩

/-- What GET and QUANTIZE answer rests on BUILT, the parameters and the entry they name alone, and they write none of STEP,
CUSTOM and BUILT: they append one response, and for an error its status. -/
theorem exec_read_of_same_inputs {i : Instr} {idx : Index} {x : Int} (hi : i = .get idx ∨ i = .quantize idx x)
    {s t : State} (h : exec i s = .next t) :
    ∃ (rsp : Response) (errors : List Status), ∀ u : State, u.built = s.built → u.cfg = s.cfg →
      u.steps[idx] = s.steps[idx] →
      exec i u = .next { u with rspBuf := u.rspBuf ++ [rsp], faultRecord := u.faultRecord ++ errors } := by
  cases hb : s.built with
  | false => exact ⟨_, [.notBuilt], fun u hu _ _ => exec_read_of_not_built hi hu⟩
  | true =>
    obtain ⟨r, hr⟩ := exec_read_of_built hi hb h
    refine ⟨responseWord .ok r, [], fun u hu hcfg hk => ?_⟩
    simp only [hr u hu hcfg hk, List.append_nil, State.respond, State.emit]

/-- No response and no BUILT depends on CUSTOM, and no table but BUILD_CUSTOM's (R23). -/
theorem exec_withCustom {i : Instr} {s t : State} (h : exec i s = .next t) (c : Table Byte) :
    ∃ t', exec i { s with custom := c } = .next t' ∧ t'.rspBuf = t.rspBuf ∧ t'.built = t.built ∧
      (i ≠ .buildCustom → t'.steps = t.steps) := by
  rcases instr_kinds i with hi | ⟨idx, byte, rfl⟩ | ⟨idx, x, hread⟩
  · obtain ⟨k, _, hk⟩ := exec_build_of_same_inputs hi s
    obtain ⟨k', hk', _⟩ := exec_build hi { s with custom := c }
    rw [hk s rfl fun _ => rfl, Host.Outcome.next.injEq] at h
    subst h
    refine ⟨_, hk', rfl, rfl, fun hne => ?_⟩
    rw [hk { s with custom := c } rfl fun hi' => absurd hi' hne, Host.Outcome.next.injEq] at hk'
    have hsame : k = k' := congrArg State.steps hk'
    exact hsame.symm
  · cases h
    exact ⟨_, rfl, rfl, rfl, fun _ => rfl⟩
  · obtain ⟨rsp, errors, he⟩ := exec_read_of_same_inputs hread h
    rw [he s rfl rfl rfl, Host.Outcome.next.injEq] at h
    subst h
    exact ⟨_, he { s with custom := c } rfl rfl rfl, rfl, rfl, fun _ => rfl⟩

/-! ### The response of a command -/

/-- An OK response is one the block can produce (R62). -/
theorem legalResponse_ok (r : Result) : LegalResponse (responseWord .ok r) :=
  ⟨reservedField_responseWord .ok r, .inl (statusField_responseWord .ok r)⟩

/-- An error's response is one the block can produce (R121). -/
theorem legalResponse_error {st : Status} (h : st ≠ .ok) : LegalResponse (responseWord st noResult) := by
  cases st with
  | ok => exact absurd rfl h
  | illegalOp => decide
  | reservedField => decide
  | notBuilt => decide

/-- A word's run answers exactly one response, of the format (R62, R68). -/
theorem runWord_answers_legalResponse {w : Word} {s t : State} (h : runWord w s = .next t) :
    ∃ rsp, LegalResponse rsp ∧ t.rspBuf = s.rspBuf ++ [rsp] := by
  rcases runWord_effect h with ⟨_, k, _, _, _, rfl, _⟩ | ⟨idx, byte, _, rfl⟩ | ⟨r, _, rfl⟩ | ⟨st, hst, rfl⟩
  · exact ⟨_, legalResponse_ok _, rfl⟩
  · exact ⟨_, legalResponse_ok _, rfl⟩
  · exact ⟨_, legalResponse_ok _, rfl⟩
  · exact ⟨_, legalResponse_error hst, rfl⟩

/-- NOT_BUILT as the rules of GET and QUANTIZE give it (R124). -/
theorem answersError_notBuilt (s : State) : AnswersError (.next (s.raiseError .notBuilt)) s 0x03000000#32 :=
  ⟨_, rfl⟩

/-! ### The step, a case each -/

/-- An edge with `rst = 1` is the reset edge (R140). -/
theorem step_of_rst {s : State} (hr : s.rst = true) : step s = .next s.resetEdge := by
  simp only [step, clockEdge, hr, if_true]

/-- An edge that answers the command in flight runs its word on the state its transfers leave (R33, R44). -/
theorem step_of_completes {s : State} {f : Flight} (hr : s.rst = false) (hf : s.inFlight = some f)
    (hc : s.completes f = true) : step s = runWord f.word s.beginCompletion := by
  simp [step, clockEdge, hr, hf, hc]

/-- An edge without reset and with no command in flight moves the channels only (R147). -/
theorem step_of_idle {s : State} (hr : s.rst = false) (hf : s.inFlight = none) : step s = .next s.transfer := by
  simp [step, clockEdge, hr, hf]

/-- What an edge without reset can do to STEP, CUSTOM and BUILT: nothing; or it executes the BUILD in flight, which writes
the table it would build from the state before the edge; or it executes the LOAD_CUSTOM in flight (R22 to R25). -/
theorem step_registers {s t : State} (hr : s.rst = false) (h : step s = .next t) :
    (t.steps = s.steps ∧ t.custom = s.custom ∧ t.built = s.built) ∨
    (∃ f i, t.custom = s.custom ∧ t.built = true ∧ (s.cfg.numbers = Config.qtb1 → ∀ j : Index, StepOk t.steps[j]) ∧
      s.inFlight = some f ∧ decode f.word = .ok i ∧ IsBuild i ∧
      exec i s = .next ((s.writeTable t.steps).respond noResult)) ∨
    (∃ (f : Flight) (idx : Index) (byte : Byte), t.steps = s.steps ∧ t.custom = s.custom.set idx byte ∧
      t.built = s.built ∧ s.inFlight = some f ∧ decode f.word = .ok (.loadCustom idx byte)) := by
  rcases step_cases h with ⟨hr', _⟩ | ⟨_, _, rfl⟩ | ⟨f, _, hf, _, hw⟩ | ⟨f, _, _, _, rfl⟩
  · simp [hr] at hr'
  · simp
  · rcases runWord_effect hw with ⟨i, _, hd, hi, he, _, _⟩ | ⟨idx, byte, hd, rfl⟩ | ⟨r, _, rfl⟩ | ⟨st, _, rfl⟩
    · obtain ⟨k, hok, hk⟩ := exec_build_of_same_inputs hi s
      rw [hk s.beginCompletion (by simp) fun _ => by simp, Host.Outcome.next.injEq] at he
      subst he
      exact .inr (.inl ⟨f, i, by simp, rfl, hok, hf, hd, hi, hk s rfl fun _ => rfl⟩)
    · exact .inr (.inr ⟨f, idx, byte, by simp, by simp, by simp, hf, hd⟩)
    · simp
    · simp
  · simp

/-! ### The invariant, a field each -/

/-- No step changes the parameters (R27, R152). -/
theorem step_keeps_cfg {s t : State} (h : step s = .next t) : t.cfg = s.cfg := by
  rcases step_cases h with ⟨_, rfl⟩ | ⟨_, _, rfl⟩ | ⟨f, _, _, _, hw⟩ | ⟨f, _, _, _, rfl⟩
  · simp
  · simp
  · obtain ⟨hcfg, _⟩ := runWord_frame hw
    simpa using hcfg
  · simp

/-- Every step keeps the step table's invariant (R21). -/
theorem step_keeps_table {s t : State} (hn : s.cfg.numbers = Config.qtb1)
    (hs : s.built = true → ∀ i : Index, StepOk s.steps[i]) (h : step s = .next t) (ht : t.built = true) :
    ∀ i : Index, StepOk t.steps[i] := by
  cases hr : s.rst with
  | true =>
    rw [step_of_rst hr, Host.Outcome.next.injEq] at h
    simp [← h] at ht
  | false =>
    rcases step_registers hr h with ⟨hsteps, _, hb⟩ | ⟨_, _, _, _, hok, _⟩ | ⟨_, _, _, hsteps, _, hb, _⟩
    · exact hsteps ▸ hs (hb ▸ ht)
    · exact hok hn
    · exact hsteps ▸ hs (hb ▸ ht)

/-- Room for one more response is a buffer below RSP_DEPTH (R150). -/
theorem State.hasRoom_iff {s : State} : s.hasRoom = true ↔ s.rspBuf.length < s.cfg.rspDepth := decide_eq_true_iff

/-- A command is answered only where there is room for its response (R150). -/
theorem State.hasRoom_of_completes {s : State} {f : Flight} (h : s.completes f = true) : s.hasRoom = true := by
  simp only [State.completes, Bool.and_eq_true] at h
  exact h.1

/-- The transfers of an edge put no response into the buffer. -/
theorem State.transfer_rspBuf_length_le (s : State) : s.transfer.rspBuf.length ≤ s.rspBuf.length := by
  rw [State.transfer_rspBuf]
  split <;> simp

/-- Where there is room before the transfers of an edge there is room after them. -/
theorem State.hasRoom_transfer {s : State} (h : s.hasRoom = true) : s.transfer.hasRoom = true := by
  have := s.transfer_rspBuf_length_le
  rw [State.hasRoom_iff] at h ⊢
  rw [State.transfer_cfg]
  omega

/-- Every step keeps the bound of the response buffer (R150). -/
theorem step_keeps_buffer_bound {s t : State} (hs : s.rspBuf.length ≤ s.cfg.rspDepth) (h : step s = .next t) :
    t.rspBuf.length ≤ t.cfg.rspDepth := by
  have hle := s.transfer_rspBuf_length_le
  rw [step_keeps_cfg h]
  rcases step_cases h with ⟨_, rfl⟩ | ⟨_, _, rfl⟩ | ⟨f, _, _, hc, hw⟩ | ⟨f, _, _, _, rfl⟩
  · simp
  · omega
  · obtain ⟨rsp, _, hbuf⟩ := runWord_answers_legalResponse hw
    have hroom := State.hasRoom_iff.mp (State.hasRoom_of_completes hc)
    rw [hbuf, List.length_append, State.beginCompletion_rspBuf, List.length_singleton]
    omega
  · rw [State.keepInFlight_rspBuf]
    omega

/-- Every step keeps room for the command in flight: a command is accepted only where there is room. -/
theorem step_keeps_flight_room {s t : State} (hs : s.inFlight ≠ none → s.hasRoom = true) (h : step s = .next t)
    (ht : t.inFlight ≠ none) : t.hasRoom = true := by
  rcases step_cases h with ⟨_, rfl⟩ | ⟨_, hf, rfl⟩ | ⟨f, _, _, _, hw⟩ | ⟨f, _, hf, _, rfl⟩
  · simp at ht
  · have hacc : s.accepts = true := by
      by_contra hacc
      simp [hacc, hf] at ht
    obtain ⟨_, _, _, _, hroom⟩ := State.accepts_iff.mp hacc
    exact State.hasRoom_transfer hroom
  · obtain ⟨_, hnone, _⟩ := runWord_frame hw
    simp [hnone] at ht
  · exact State.hasRoom_transfer (hs (by simp [hf]))

/-- Every step keeps that all responses are of the format (R62, R68). -/
theorem step_keeps_legal_responses {s t : State} (hs : ∀ rsp ∈ s.taken ++ s.rspBuf, LegalResponse rsp)
    (h : step s = .next t) : ∀ rsp ∈ t.taken ++ t.rspBuf, LegalResponse rsp := by
  rcases step_cases h with ⟨_, rfl⟩ | ⟨_, _, rfl⟩ | ⟨f, _, _, _, hw⟩ | ⟨f, _, _, _, rfl⟩
  · intro rsp hrsp
    exact hs rsp (List.mem_append_left _ (by simpa using hrsp))
  · rwa [State.transfer_responses]
  · obtain ⟨rsp, hlegal, hbuf⟩ := runWord_answers_legalResponse hw
    obtain ⟨_, _, _, _, htaken, _⟩ := runWord_frame hw
    rw [htaken, hbuf, ← List.append_assoc, State.beginCompletion_taken, State.beginCompletion_rspBuf,
      State.transfer_responses]
    intro rsp' hrsp
    rcases List.mem_append.mp hrsp with hold | hnew
    · exact hs rsp' hold
    · exact List.mem_singleton.mp hnew ▸ hlegal
  · rwa [State.keepInFlight_taken, State.keepInFlight_rspBuf, State.transfer_responses]

/-! ### Before the first BUILD -/

/-- Before the first BUILD every word answers: only a QUANTIZE of a built table can stop (entry 11). -/
theorem runWord_next_of_not_built {s : State} (hb : s.built = false) (w : Word) : ∃ t, runWord w s = .next t := by
  cases hd : decode w with
  | ok i =>
    rw [runWord_of_ok hd]
    exact exec_next_of_no_zero_divisor fun _ _ _ hbuilt => by simp [hb] at hbuilt
  | error e => exact ⟨_, runWord_of_error hd s⟩

/-- Before the first BUILD a command that is no BUILD carries STEP along and reads nothing of it (R26). -/
theorem exec_withSteps_of_not_built {i : Instr} {s t : State} (hb : s.built = false) (hi : ¬IsBuild i)
    (h : exec i s = .next t) (k : Table StepBits) :
    t.built = false ∧ exec i { s with steps := k } = .next { t with steps := k } := by
  rcases instr_kinds i with hbuild | ⟨idx, byte, rfl⟩ | ⟨idx, x, hread⟩
  · exact absurd hbuild hi
  · cases h
    exact ⟨hb, rfl⟩
  · rw [exec_read_of_not_built hread hb, Host.Outcome.next.injEq] at h
    subst h
    exact ⟨hb, exec_read_of_not_built (s := { s with steps := k }) hread hb⟩

/-- Before the first BUILD a word's run carries STEP along, or it is a BUILD and leaves nothing of it (R26, R46). -/
theorem runWord_withSteps_of_not_built {w : Word} {s t : State} (hb : s.built = false) (h : runWord w s = .next t)
    (k : Table StepBits) :
    (t.built = false ∧ runWord w { s with steps := k } = .next { t with steps := k }) ∨
      runWord w { s with steps := k } = .next t := by
  rcases runWord_cases h with ⟨i, hd, he⟩ | ⟨e, hd, rfl⟩
  · rw [runWord_of_ok hd]
    by_cases hi : IsBuild i
    · obtain ⟨k', _, hk'⟩ := exec_build_of_same_inputs hi s
      rw [hk' s rfl fun _ => rfl] at he
      exact .inr ((hk' { s with steps := k } rfl fun _ => rfl).trans he)
    · exact .inl (exec_withSteps_of_not_built hb hi he k)
  · exact .inl ⟨hb, runWord_of_error hd _⟩

/-- What is observed of the state a run ends in; none if it stops. -/
def observed (o : Answer) : Option Observation :=
  match o with
  | .next t => some t.observe
  | .fault _ => none
  | .refused _ => none

theorem State.predicted_eq_observed (s : State) : s.predicted = observed (runStream s.pending s) := rfl

theorem runStream_cons_of_next {w : Word} {s t : State} (h : runWord w s = .next t) (ws : List Word) :
    runStream (w :: ws) s = runStream ws t := by
  simp only [runStream, h]

/-- From a state with BUILT = 0 what is observed of a stream's run does not depend on STEP (R26, R142). -/
theorem observed_runStream_withSteps (k : Table StepBits) (ws : List Word) {s : State} (hb : s.built = false) :
    observed (runStream ws { s with steps := k }) = observed (runStream ws s) := by
  induction ws generalizing s with
  | nil => simp [runStream, observed, State.observe, State.responses, hb]
  | cons w ws ih =>
    obtain ⟨t, ht⟩ := runWord_next_of_not_built hb w
    rw [runStream_cons_of_next ht]
    rcases runWord_withSteps_of_not_built hb ht k with ⟨hbt, hk⟩ | hk
    · rw [runStream_cons_of_next hk, ih hbt]
    · rw [runStream_cons_of_next hk]

/-! ### The command in flight -/

/-- A command offered to a ready block is accepted at the edge. -/
theorem State.accepts_of_cmdData {s : State} {w : Word} (hready : s.cmdReady = true) (hdata : s.cmdData = some w) :
    s.accepts = true ∧ s.stream.head? = some w := by
  unfold State.cmdData at hdata
  split at hdata
  · exact ⟨by simp [State.accepts, hready, ‹s.cmdValid = true›], hdata⟩
  · cases hdata

/-- A ready block is not reset at the edge and has no command in flight (R141, entry 8). -/
theorem State.idle_of_cmdReady {s : State} (h : s.cmdReady = true) : s.rst = false ∧ s.inFlight = none := by
  simp only [State.cmdReady, Bool.and_eq_true, Bool.not_eq_true', Option.isNone_iff_eq_none] at h
  exact h.1

/-- While a command is in flight the host's stream does not move, and the command stays for one more edge or leaves. -/
theorem step_of_inFlight {s t : State} {f : Flight} (hf : s.inFlight = some f) (h : step s = .next t) :
    t.stream = s.stream ∧ (t.inFlight = none ∨ t.inFlight = some { f with age := f.age + 1 }) := by
  have hacc := State.accepts_of_inFlight hf
  rcases step_cases h with ⟨_, rfl⟩ | ⟨_, hnone, _⟩ | ⟨f', _, _, _, hw⟩ | ⟨f', _, hf', _, rfl⟩
  · simp
  · simp [hf] at hnone
  · obtain ⟨_, hflight, hstream, _⟩ := runWord_frame hw
    exact ⟨by simp [hstream, hacc], .inl (by simp [hflight])⟩
  · obtain rfl : f = f' := by simpa [hf] using hf'
    simp [hacc]

/-! ### Placing a command (entry 7) -/

namespace State

section

variable {nStep w qw cmdW rspW : Nat} (s : State nStep w qw cmdW rspW) (cmd : Word cmdW)

@[simp] theorem makeRoom_steps : s.makeRoom.steps = s.steps := by unfold makeRoom; split <;> rfl
@[simp] theorem makeRoom_custom : s.makeRoom.custom = s.custom := by unfold makeRoom; split <;> rfl
@[simp] theorem makeRoom_built : s.makeRoom.built = s.built := by unfold makeRoom; split <;> rfl
@[simp] theorem makeRoom_cfg : s.makeRoom.cfg = s.cfg := by unfold makeRoom; split <;> rfl
@[simp] theorem makeRoom_stream : s.makeRoom.stream = s.stream := by unfold makeRoom; split <;> rfl

@[simp] theorem placeCommand_steps : (s.placeCommand cmd).steps = s.makeRoom.steps := rfl
@[simp] theorem placeCommand_custom : (s.placeCommand cmd).custom = s.makeRoom.custom := rfl
@[simp] theorem placeCommand_built : (s.placeCommand cmd).built = s.makeRoom.built := rfl
@[simp] theorem placeCommand_cfg : (s.placeCommand cmd).cfg = s.makeRoom.cfg := rfl
@[simp] theorem placeCommand_inFlight : (s.placeCommand cmd).inFlight = some { word := cmd, age := 0 } := rfl
@[simp] theorem placeCommand_rspBuf : (s.placeCommand cmd).rspBuf = s.makeRoom.rspBuf := rfl
@[simp] theorem placeCommand_stream : (s.placeCommand cmd).stream = s.makeRoom.stream := rfl
@[simp] theorem placeCommand_taken : (s.placeCommand cmd).taken = s.makeRoom.taken := rfl
@[simp] theorem placeCommand_edge : (s.placeCommand cmd).edge = Edge.quiet := rfl
@[simp] theorem placeCommand_hasRoom : (s.placeCommand cmd).hasRoom = s.makeRoom.hasRoom := rfl

end

/-- Making room hands the responses to the host and loses none. -/
theorem makeRoom_responses (s : State) :
    s.makeRoom.taken ++ s.makeRoom.rspBuf = s.taken ++ s.rspBuf := by
  unfold makeRoom; split <;> simp

/-- A block that can hold a response has room after making it. -/
theorem hasRoom_makeRoom {s : State} (h : 1 ≤ s.cfg.rspDepth) : s.makeRoom.hasRoom = true := by
  unfold makeRoom
  split
  · assumption
  · exact hasRoom_iff.mpr h

end State

/-- The step after a command is placed runs exactly its word. -/
theorem step_placeCommand {s : State} (h : 1 ≤ s.cfg.rspDepth) (cmd : Word) :
    step (s.placeCommand cmd) = runWord cmd (s.placeCommand cmd).beginCompletion := by
  have hrst : (s.placeCommand cmd).rst = false := rfl
  have hc : (s.placeCommand cmd).completes { word := cmd, age := 0 } = true := by
    simp [State.completes, State.hasRoom_makeRoom h, Edge.quiet]
  exact step_of_completes hrst rfl hc

end Sys2Proof.Machine

open Sys2Proof Sys2Proof.Machine

/-- Settles O48: the entries `8 * k` are those of a built table, which every step keeps. -/
theorem everyStepKeepsTheStepTableInvariant : Obligations.EveryStepKeepsTheStepTableInvariant := by
  intro s t hn hs h ht i
  exact stepOk_iff.mp (step_keeps_table hn (fun hb j => stepOk_iff.mpr (hs hb j)) h ht i)

/-- Settles O50: every step keeps each field of the invariant. -/
theorem invariantIsKeptByEveryStep : Obligations.InvariantIsKeptByEveryStep := fun _ _ hs h =>
  { cfg := step_keeps_cfg h ▸ hs.cfg
    table := step_keeps_table hs.cfg.numbers hs.table h
    buffer := step_keeps_buffer_bound hs.buffer h
    flight := step_keeps_flight_room hs.flight h
    responses := step_keeps_legal_responses hs.responses h }

/-- Settles O16: of the three things a step can do to the registers only a BUILD writes STEP, with the table it builds from
what it reads; GET and QUANTIZE answer the same wherever the entry they name is the same. -/
theorem stepTableChangesOnlyByAWholeBuild : Obligations.StepTableChangesOnlyByAWholeBuild := by
  refine ⟨fun s t hr h hne => ?_, fun s k i hi => ?_, fun s t k idx x i hi hk h => ?_⟩
  · rcases step_registers hr h with ⟨hsteps, _⟩ | ⟨f, i, _, hb, _, hf, hd, hi, he⟩ | ⟨_, _, _, hsteps, _⟩
    · exact absurd hsteps hne
    · exact ⟨f, i, _, hf, hd, hi, he, hb, rfl⟩
    · exact absurd hsteps hne
  · obtain ⟨k', _, he⟩ := exec_build_of_same_inputs hi s
    exact ⟨_, _, he s rfl fun _ => rfl, he { s with steps := k } rfl fun _ => rfl, rfl⟩
  · obtain ⟨rsp, errors, he⟩ := exec_read_of_same_inputs hi h
    rw [he s rfl rfl rfl, Host.Outcome.next.injEq] at h
    subst h
    exact he { s with steps := k } rfl rfl hk

/-- Settles O17: each BUILD writes BUILT with its table, and of the steps only a reset edge and a BUILD in flight write
it. -/
theorem builtIsSetByBuildsAndClearedByResetOnly : Obligations.BuiltIsSetByBuildsAndClearedByResetOnly := by
  refine ⟨rfl, fun s i hi => ?_, fun s idx x hb => ⟨?_, ?_⟩,
    fun s t h => ⟨fun hr => ?_, fun hr hb => ?_, fun hr hb ht => ?_⟩⟩
  · obtain ⟨k, _, he⟩ := exec_build_of_same_inputs hi s
    exact ⟨_, he s rfl fun _ => rfl, rfl⟩
  · rw [exec_get_of_not_built hb]
    exact answersError_notBuilt s
  · rw [exec_quantize_of_not_built hb]
    exact answersError_notBuilt s
  · rw [step_of_rst hr, Host.Outcome.next.injEq] at h
    simp [← h]
  · rcases step_registers hr h with ⟨_, _, hkept⟩ | ⟨_, _, _, hset, _⟩ | ⟨_, _, _, _, _, hkept, _⟩
    · exact hkept.trans hb
    · exact hset
    · exact hkept.trans hb
  · rcases step_registers hr h with ⟨_, _, hkept⟩ | ⟨f, i, _, _, _, hf, hd, hi, _⟩ | ⟨_, _, _, _, _, hkept, _⟩
    · simp [hkept, hb] at ht
    · exact ⟨f, i, hf, hd, hi⟩
    · simp [hkept, hb] at ht

/-- Settles O18: of the three things a step can do to the registers only a LOAD_CUSTOM writes CUSTOM, in the entry it
names. -/
theorem stagingFileChangesOnlyByLoadCustom : Obligations.StagingFileChangesOnlyByLoadCustom := by
  intro s t hr h hne
  rcases step_registers hr h with ⟨_, hcustom, _⟩ | ⟨_, _, hcustom, _⟩ | ⟨f, idx, byte, _, hcustom, _, hf, hd⟩
  · exact absurd hcustom hne
  · exact absurd hcustom hne
  · refine ⟨f, idx, byte, hf, hd, by simp [hcustom], fun j hj => ?_⟩
    have hval : idx.val ≠ j.val := fun hval => hj (Fin.ext hval.symm)
    simp only [hcustom, Fin.getElem_fin, Vector.getElem_set_ne _ _ hval]

/-- Settles O19: a command's response, its BUILT and every table but BUILD_CUSTOM's are the same under any CUSTOM, and a
word that is no command answers its error. -/
theorem onlyBuildCustomReadsTheStagingFile : Obligations.OnlyBuildCustomReadsTheStagingFile := by
  intro w s t c h
  rcases runWord_cases h with ⟨i, hd, he⟩ | ⟨e, hd, rfl⟩
  · obtain ⟨t', he', hbuf, hbuilt, hsteps⟩ := exec_withCustom he c
    exact ⟨t', (runWord_of_ok hd _).trans he', hbuf, hbuilt, fun hne => hsteps fun hi => hne (hi ▸ hd)⟩
  · exact ⟨_, runWord_of_error hd _, rfl, rfl, fun _ => rfl⟩

/-- Settles O20: a run before the first BUILD carries STEP along until a BUILD overwrites all of it. -/
theorem stepTableIsUnobservableBeforeABuild : Obligations.StepTableIsUnobservableBeforeABuild := by
  intro s k hb
  rw [State.predicted_eq_observed, State.predicted_eq_observed]
  exact observed_runStream_withSteps k s.pending hb

/-- Settles O21: each of the four things a step can do keeps the parameters. -/
theorem noStepChangesTheParameters : Obligations.NoStepChangesTheParameters := fun _ _ => step_keeps_cfg

/-- Settles O44: a ready block has nothing in flight, so its edge is a transfer, which places the word; with a command in
flight it is not ready. -/
theorem atMostOneCommandIsInFlight : Obligations.AtMostOneCommandIsInFlight := by
  refine fun s t h => ⟨fun w hready hdata => ?_, fun f hf => ⟨?_, step_of_inFlight hf h⟩⟩
  · obtain ⟨hr, hnone⟩ := State.idle_of_cmdReady hready
    obtain ⟨hacc, hhead⟩ := State.accepts_of_cmdData hready hdata
    rw [step_of_idle hr hnone, Host.Outcome.next.injEq] at h
    simp [← h, hacc, hhead]
  · simp [State.cmdReady, hf]

/-- Settles O38: the fields of the state after reset. -/
theorem resetStateIsAsTheSpecGivesIt : Obligations.ResetStateIsAsTheSpecGivesIt := by
  refine ⟨State.resetWith_built _, fun i => ?_, State.resetWith_inFlight _, State.resetWith_rspBuf _⟩
  simp [State.reset]

/-- Settles O47: the step that answers is the run of the word in flight; the transfers move responses only; a placed word
is answered at the next edge, since there is room and the edge is quiet. -/
theorem stepRunsTheDecodedCommandInFlight : Obligations.StepRunsTheDecodedCommandInFlight := by
  refine ⟨fun s f i hr hf hc hd => ?_, fun s f e hr hf hc _ => step_of_completes hr hf hc, fun s => ?_,
    fun s w hdepth hw => ?_⟩
  · exact (step_of_completes hr hf hc).trans (runWord_of_ok hd _)
  · exact ⟨State.transfer_steps s, State.transfer_custom s, State.transfer_built s, State.transfer_cfg s,
      State.transfer_responses s⟩
  · have hword : tableWord 32 w = BitVec.ofNat 32 w := by rw [tableWord, Nat.mod_eq_of_lt hw]
    have hacc : (s.placeCommand (tableWord 32 w)).accepts = false := State.accepts_of_inFlight rfl
    refine ⟨(s.placeCommand (tableWord 32 w)).beginCompletion, ?_, by simp, by simp, by simp, by simp, by simp [hacc],
      rfl, ?_⟩
    · rw [State.withFetchWord, step_placeCommand hdepth, hword]
    · exact (State.transfer_responses _).trans (State.makeRoom_responses s)

end

section
/-! PROOFS of the family 20_memory: reads that write nothing and writes that repeat, one response per command, no schedule
that changes what a run is observed to be, and the end of every run. -/

namespace Sys2Proof.Machine

/-! ### Reads and writes -/

/-- GET and QUANTIZE change the response buffer and the fault record alone (R47). -/
theorem exec_read_frame {i : Instr} {idx : Index} {x : Int} (hi : i = .get idx ∨ i = .quantize idx x) {s t : State}
    (h : exec i s = .next t) : t = { s with rspBuf := t.rspBuf, faultRecord := t.faultRecord } := by
  obtain ⟨rsp, errors, he⟩ := exec_read_of_same_inputs hi h
  rw [he s rfl rfl rfl, Host.Outcome.next.injEq] at h
  subst h
  rfl

/-- A command that is no BUILD keeps what GET and QUANTIZE read: STEP, BUILT and the parameters (R22, R25). -/
theorem exec_keeps_read_inputs {i : Instr} (hi : ¬IsBuild i) {s t : State} (h : exec i s = .next t) :
    t.steps = s.steps ∧ t.built = s.built ∧ t.cfg = s.cfg := by
  rcases instr_kinds i with hbuild | ⟨idx, byte, rfl⟩ | ⟨idx, x, hread⟩
  · exact absurd hbuild hi
  · cases h
    simp
  · rw [exec_read_frame hread h]
    exact ⟨rfl, rfl, rfl⟩

/-- A second LOAD_CUSTOM or BUILD writes what the first one wrote (R47). -/
theorem exec_write_idempotent {i : Instr} (hi : (∃ idx byte, i = .loadCustom idx byte) ∨ IsBuild i) {s t u : State}
    (ht : exec i s = .next t) (hu : exec i t = .next u) :
    u.steps = t.steps ∧ u.custom = t.custom ∧ u.built = t.built := by
  rcases hi with ⟨idx, byte, rfl⟩ | hbuild
  · cases ht
    cases hu
    simp
  · obtain ⟨k, _, hk⟩ := exec_build_of_same_inputs hbuild s
    rw [hk s rfl fun _ => rfl, Host.Outcome.next.injEq] at ht
    subst ht
    rw [hk ((s.writeTable k).respond noResult) rfl fun _ => rfl, Host.Outcome.next.injEq] at hu
    subst hu
    exact ⟨rfl, rfl, rfl⟩

/-! ### The responses of a run -/

/-- A word's run answers exactly one response, behind the earlier ones (R45). -/
theorem runWord_responses {w : Word} {s t : State} (h : runWord w s = .next t) :
    ∃ rsp, t.responses = s.responses ++ [rsp] := by
  obtain ⟨rsp, _, hbuf⟩ := runWord_answers_legalResponse h
  obtain ⟨_, _, _, _, htaken, _⟩ := runWord_frame h
  exact ⟨rsp, by rw [State.responses, State.responses, htaken, hbuf, List.append_assoc]⟩

/-- The answer to the command in flight finds the responses as they were before the edge (R45). -/
theorem State.beginCompletion_responses (s : State) : s.beginCompletion.responses = s.responses :=
  s.transfer_responses

/-- The first word of a stream that runs to its end answers. -/
theorem runStream_cons {w : Word} {ws : List Word} {s u : State} (h : runStream (w :: ws) s = .next u) :
    ∃ t, runWord w s = .next t ∧ runStream ws t = .next u := by
  cases hw : runWord w s with
  | next t => exact ⟨t, rfl, runStream_cons_of_next hw ws ▸ h⟩
  | fault r => simp [runStream, hw] at h
  | refused r => simp [runStream, hw] at h

/-- A stream that runs to its end has exactly one response for every word (R45). -/
theorem runStream_responses_length {ws : List Word} {s t : State} (h : runStream ws s = .next t) :
    t.responses.length = s.responses.length + ws.length := by
  induction ws generalizing s with
  | nil =>
    cases h
    rfl
  | cons w ws ih =>
    obtain ⟨u, hw, hws⟩ := runStream_cons h
    obtain ⟨rsp, hrsp⟩ := runWord_responses hw
    rw [ih hws, hrsp, List.length_append, List.length_singleton, List.length_cons]
    omega

/-! ### States that run alike -/

/-- The two states are the same in all that a word's run reads and in all that is observed of a run; where their responses
wait, what is in flight, the host's side and the script may differ. -/
structure State.Agrees (s u : State) : Prop where
  steps : u.steps = s.steps
  custom : u.custom = s.custom
  built : u.built = s.built
  cfg : u.cfg = s.cfg
  responses : u.responses = s.responses

namespace State.Agrees

theorem symm {s u : State} (h : s.Agrees u) : u.Agrees s :=
  ⟨h.steps.symm, h.custom.symm, h.built.symm, h.cfg.symm, h.responses.symm⟩

theorem observe_eq {s u : State} (h : s.Agrees u) : u.observe = s.observe := by
  simp only [State.observe, h.steps, h.custom, h.built, h.responses]

theorem writeTable {s u : State} (h : s.Agrees u) (k : Table StepBits) : (s.writeTable k).Agrees (u.writeTable k) :=
  ⟨rfl, h.custom, rfl, h.cfg, h.responses⟩

theorem writeCustom {s u : State} (h : s.Agrees u) (idx : Index) (byte : Byte) :
    (s.writeCustom idx byte).Agrees (u.writeCustom idx byte) :=
  ⟨h.steps, by simp [h.custom], h.built, h.cfg, h.responses⟩

/-- States that agree still agree when each answers the same response, whatever their fault records become. -/
theorem answer {s u : State} (h : s.Agrees u) (rsp : Response) (es eu : List Status) :
    State.Agrees { s with rspBuf := s.rspBuf ++ [rsp], faultRecord := es }
      { u with rspBuf := u.rspBuf ++ [rsp], faultRecord := eu } :=
  ⟨h.steps, h.custom, h.built, h.cfg, by
    show u.taken ++ (u.rspBuf ++ [rsp]) = s.taken ++ (s.rspBuf ++ [rsp])
    rw [← List.append_assoc, ← List.append_assoc]
    exact congrArg (· ++ [rsp]) h.responses⟩

theorem respond {s u : State} (h : s.Agrees u) (r : Result) : (s.respond r).Agrees (u.respond r) :=
  h.answer _ _ _

theorem raiseError {s u : State} (h : s.Agrees u) (st : Status) : (s.raiseError st).Agrees (u.raiseError st) :=
  h.answer _ _ _

end State.Agrees

/-- The transfers of an edge leave a state that runs alike (R147). -/
theorem State.agrees_transfer (s : State) : s.Agrees s.transfer :=
  ⟨s.transfer_steps, s.transfer_custom, s.transfer_built, s.transfer_cfg, s.transfer_responses⟩

/-- What is in flight plays no part in the agreement: only the pending commands tell it. -/
theorem State.Agrees.withInFlight {s u : State} (h : s.Agrees u) (f : Option Flight) :
    s.Agrees { u with inFlight := f } :=
  ⟨h.steps, h.custom, h.built, h.cfg, h.responses⟩

/-- From states that agree a command goes to states that agree. -/
theorem exec_of_agrees {i : Instr} {s t u : State} (hsu : s.Agrees u) (h : exec i s = .next t) :
    ∃ v, exec i u = .next v ∧ t.Agrees v := by
  rcases instr_kinds i with hi | ⟨idx, byte, rfl⟩ | ⟨idx, x, hread⟩
  · obtain ⟨k, _, hk⟩ := exec_build_of_same_inputs hi s
    rw [hk s rfl fun _ => rfl, Host.Outcome.next.injEq] at h
    subst h
    exact ⟨_, hk u hsu.cfg fun _ => hsu.custom, (hsu.writeTable k).respond _⟩
  · cases h
    exact ⟨_, rfl, (hsu.writeCustom idx byte).respond _⟩
  · obtain ⟨rsp, errors, he⟩ := exec_read_of_same_inputs hread h
    rw [he s rfl rfl rfl, Host.Outcome.next.injEq] at h
    subst h
    exact ⟨_, he u hsu.built hsu.cfg (by rw [hsu.steps]), hsu.answer rsp _ _⟩

/-- From states that agree a word's run goes to states that agree. -/
theorem runWord_of_agrees {w : Word} {s t u : State} (hsu : s.Agrees u) (h : runWord w s = .next t) :
    ∃ v, runWord w u = .next v ∧ t.Agrees v := by
  rcases runWord_cases h with ⟨i, hd, he⟩ | ⟨e, hd, rfl⟩
  · rw [runWord_of_ok hd]
    exact exec_of_agrees hsu he
  · exact ⟨_, runWord_of_error hd u, hsu.raiseError _⟩

/-- A run that stops at its first word is observed as nothing. -/
theorem observed_runStream_cons_of_stops {w : Word} {s : State} (h : ∀ t, runWord w s ≠ .next t) (ws : List Word) :
    observed (runStream (w :: ws) s) = none := by
  cases hw : runWord w s with
  | next t => exact absurd hw (h t)
  | fault r => simp only [runStream, hw, observed]
  | refused r => simp only [runStream, hw, observed]

/-- From states that agree a stream's run is observed the same: each word keeps the agreement, or stops both. -/
theorem observed_runStream_of_agrees (ws : List Word) {s u : State} (hsu : s.Agrees u) :
    observed (runStream ws u) = observed (runStream ws s) := by
  induction ws generalizing s u with
  | nil => simp only [runStream, observed, hsu.observe_eq]
  | cons w ws ih =>
    by_cases hnext : ∃ t, runWord w s = .next t
    · obtain ⟨t, ht⟩ := hnext
      obtain ⟨v, hv, htv⟩ := runWord_of_agrees hsu ht
      rw [runStream_cons_of_next ht, runStream_cons_of_next hv, ih htv]
    · have hs : ∀ t, runWord w s ≠ .next t := fun t ht => hnext ⟨t, ht⟩
      have hu : ∀ v, runWord w u ≠ .next v := fun v hv =>
        let ⟨t, ht, _⟩ := runWord_of_agrees hsu.symm hv
        hs t ht
      rw [observed_runStream_cons_of_stops hs, observed_runStream_cons_of_stops hu]

/-! ### Pending commands and the step -/

theorem State.pending_of_inFlight {s : State} {f : Flight} (h : s.inFlight = some f) :
    s.pending = f.word :: s.stream := by
  simp [State.pending, h]

theorem State.pending_of_idle {s : State} (h : s.inFlight = none) : s.pending = s.stream := by
  simp [State.pending, h]

/-- A command accepted at an edge stays the next of the pending ones (R44). -/
theorem State.transfer_pending (s : State) : s.transfer.pending = s.pending := by
  cases hacc : s.accepts with
  | false => simp [State.pending, hacc]
  | true =>
    obtain ⟨_, hstream, _, hf, _⟩ := State.accepts_iff.mp hacc
    obtain ⟨w, ws, hws⟩ := List.exists_cons_of_ne_nil hstream
    simp [State.pending, hacc, hf, hws]

/-- States that agree and have the same commands pending will be observed the same. -/
theorem State.Agrees.predicted_eq {s u : State} (hsu : s.Agrees u) (hpending : u.pending = s.pending) :
    u.predicted = s.predicted := by
  rw [State.predicted_eq_observed, State.predicted_eq_observed, hpending, observed_runStream_of_agrees _ hsu]

/-- An edge without reset leaves the state alike with the same commands pending; or it answers the command in flight as the
run of its word alone would, and the words behind it are pending then (R44). -/
theorem step_simulates {s t : State} (hr : s.rst = false) (h : step s = .next t) :
    (s.Agrees t ∧ t.pending = s.pending) ∨
      ∃ w u, s.pending = w :: t.pending ∧ runWord w s = .next u ∧ u.Agrees t := by
  rcases step_cases h with ⟨hr', _⟩ | ⟨_, _, rfl⟩ | ⟨f, _, hf, _, hw⟩ | ⟨f, _, hf, _, rfl⟩
  · simp [hr] at hr'
  · exact .inl ⟨s.agrees_transfer, s.transfer_pending⟩
  · obtain ⟨u, hu, htu⟩ := runWord_of_agrees (s.agrees_transfer.withInFlight none).symm hw
    obtain ⟨_, hflight, _⟩ := runWord_frame hw
    obtain ⟨hstream, _⟩ := step_of_inFlight hf h
    refine .inr ⟨f.word, u, ?_, hu, htu.symm⟩
    rw [State.pending_of_inFlight hf, State.pending_of_idle hflight, hstream]
  · obtain ⟨hstream, _⟩ := step_of_inFlight hf h
    refine .inl ⟨s.agrees_transfer.withInFlight _, ?_⟩
    rw [State.pending_of_inFlight hf, State.pending_of_inFlight (s.keepInFlight_inFlight f), hstream]

/-- No edge without reset changes what a run will be observed to be (R44). -/
theorem step_keeps_predicted {s t : State} (hr : s.rst = false) (h : step s = .next t) : t.predicted = s.predicted := by
  rcases step_simulates hr h with ⟨hst, hpending⟩ | ⟨w, u, hpending, hw, hut⟩
  · exact hst.predicted_eq hpending
  · rw [State.predicted_eq_observed, State.predicted_eq_observed, hpending, runStream_cons_of_next hw,
      observed_runStream_of_agrees _ hut]

/-! ### Progress -/

/-- Every edge takes one entry off the script. -/
theorem step_script {s t : State} (h : step s = .next t) : t.script = s.script.tail := by
  rcases step_cases h with ⟨_, rfl⟩ | ⟨_, _, rfl⟩ | ⟨f, _, _, _, hw⟩ | ⟨f, _, _, _, rfl⟩
  · simp
  · simp
  · obtain ⟨_, _, _, _, _, hscript, _⟩ := runWord_frame hw
    simp [hscript]
  · simp

/-- With every step of a built table nonzero each word answers: nothing divides by zero (R21, R120). -/
theorem runWord_next_of_stepOk {s : State} (hs : s.built = true → ∀ i : Index, StepOk s.steps[i]) (w : Word) :
    ∃ t, runWord w s = .next t := by
  cases hd : decode w with
  | ok i =>
    rw [runWord_of_ok hd]
    refine exec_next_of_no_zero_divisor fun idx _ _ hb h0 => ?_
    obtain ⟨hpos, _⟩ := hs hb idx
    rw [h0] at hpos
    exact absurd hpos (by decide)
  | error e => exact ⟨_, runWord_of_error hd s⟩

/-- No step from a state of the invariant stops (R120). -/
theorem step_next_of_inv {s : State} (hs : Inv s) : ∃ t, step s = .next t := by
  cases hr : s.rst with
  | true => exact ⟨_, step_of_rst hr⟩
  | false =>
    cases hf : s.inFlight with
    | none => exact ⟨_, step_of_idle hr hf⟩
    | some f =>
      cases hc : s.completes f with
      | true =>
        rw [step_of_completes hr hf hc]
        exact runWord_next_of_stepOk (by simpa using hs.table) f.word
      | false => exact ⟨s.keepInFlight f, by simp [step, clockEdge, hr, hf, hc]⟩

theorem State.work_eq_zero_iff {s : State} : s.work = 0 ↔ s.Ended := by
  cases hf : s.inFlight <;> simp [State.work, State.Ended, hf]

/-- The transfers of an edge take one off the work for each command accepted and each response taken. -/
theorem State.work_transfer (s : State) :
    s.transfer.work + s.accepts.toNat + s.takes.toNat = s.work := by
  have hstream : 3 * s.transfer.stream.length + (if s.transfer.inFlight.isSome then 2 else 0) + s.accepts.toNat =
      3 * s.stream.length + if s.inFlight.isSome then 2 else 0 := by
    cases hacc : s.accepts with
    | false => simp [hacc]
    | true =>
      obtain ⟨_, hne, _, hf, _⟩ := State.accepts_iff.mp hacc
      obtain ⟨w, ws, hws⟩ := List.exists_cons_of_ne_nil hne
      simp [hacc, hf, hws]
      omega
  have hbuf : s.transfer.rspBuf.length + s.takes.toNat = s.rspBuf.length := by
    cases htakes : s.takes with
    | false => simp [htakes]
    | true =>
      obtain ⟨_, hne, _⟩ := State.takes_iff.mp htakes
      obtain ⟨r, rs, hrs⟩ := List.exists_cons_of_ne_nil hne
      simp [htakes, hrs]
  unfold State.work
  omega

/-- An edge without reset takes one off the work for each command accepted, each response taken and each command
answered. -/
theorem step_work {s t : State} (hr : s.rst = false) (h : step s = .next t) :
    t.work + (s.inFlight.any s.completes).toNat + s.accepts.toNat + s.takes.toNat = s.work := by
  rw [← s.work_transfer]
  rcases step_cases h with ⟨hr', _⟩ | ⟨_, hf, rfl⟩ | ⟨f, _, hf, hc, hw⟩ | ⟨f, _, hf, hc, rfl⟩
  · simp [hr] at hr'
  · simp [hf]
  · obtain ⟨_, hflight, hstream, _⟩ := runWord_frame hw
    obtain ⟨rsp, _, hbuf⟩ := runWord_answers_legalResponse hw
    simp [State.work, hf, hc, hflight, hstream, hbuf, State.accepts_of_inFlight hf]
    omega
  · simp [State.work, hf, hc, State.accepts_of_inFlight hf]

/-- At an edge at which the host presents and takes what it can and the block may finish, something moves, unless the run
has ended (R151, entries 6, 8 and 13). -/
theorem State.moves_of_fair_edge {s : State} (hs : Inv s) (hr : s.rst = false) (hoffer : s.edge.offer = true)
    (hready : s.edge.rspReady = true) (hfinish : s.edge.finish = true) :
    s.Ended ∨ s.inFlight.any s.completes = true ∨ s.accepts = true ∨ s.takes = true := by
  cases hf : s.inFlight with
  | some f =>
    have hroom : s.hasRoom = true := hs.flight (by simp [hf])
    exact .inr (.inl (by simp [State.completes, hroom, hfinish]))
  | none =>
    by_cases hbuf : s.rspBuf = []
    · by_cases hstream : s.stream = []
      · exact .inl ⟨hstream, hf, hbuf⟩
      · have hroom : s.hasRoom = true := State.hasRoom_iff.mpr (by rw [hbuf]; exact hs.cfg.depth)
        exact .inr (.inr (.inl (State.accepts_iff.mpr ⟨.inr hoffer, hstream, hr, hf, hroom⟩)))
    · exact .inr (.inr (.inr (State.takes_iff.mpr ⟨hr, hbuf, hready⟩)))

/-- A fair edge without reset takes work away, unless the run has ended (R151). -/
theorem step_work_lt_of_fair_edge {s t : State} (hs : Inv s) (hr : s.rst = false) (hoffer : s.edge.offer = true)
    (hready : s.edge.rspReady = true) (hfinish : s.edge.finish = true) (h : step s = .next t) :
    s.Ended ∨ t.work < s.work := by
  have hwork := step_work hr h
  rcases State.moves_of_fair_edge hs hr hoffer hready hfinish with hend | hmove | hmove | hmove
  · exact .inl hend
  all_goals
    rw [hmove, Bool.toNat_true] at hwork
    exact .inr (by omega)

/-! ### Runs without a reset -/

/-- A script without reset edges has none at the coming edge. -/
theorem State.rst_of_script {s : State} (h : ∀ e ∈ s.script, e.rst = false) : s.rst = false := by
  unfold State.rst State.edge
  cases hs : s.script with
  | nil => rfl
  | cons e es => exact h e (by simp [hs])

/-- Each edge without reset takes an entry off the script or, the script being at its end, work away. -/
theorem step_script_length_add_work {s t : State} {n : Nat} (hs : Inv s) (hr : s.rst = false) (h : step s = .next t)
    (hn : s.script.length + s.work ≤ n + 1) : t.script.length + t.work ≤ n := by
  have hwork := step_work hr h
  rw [step_script h]
  cases hscript : s.script with
  | cons e es =>
    rw [hscript, List.length_cons] at hn
    rw [List.tail_cons]
    omega
  | nil =>
    have hedge : s.edge = Edge.eager := by rw [State.edge, hscript]; rfl
    rw [hscript, List.length_nil] at hn
    rw [List.tail_nil, List.length_nil]
    rcases step_work_lt_of_fair_edge hs hr (by rw [hedge]; rfl) (by rw [hedge]; rfl) (by rw [hedge]; rfl) h with
      hend | hlt
    · have := State.work_eq_zero_iff.mpr hend
      omega
    · omega

theorem run_succ_of_step {s t : State} (h : step s = .next t) (n : Nat) :
    Host.Core.run Sys2Proof.core (n + 1) s = Host.Core.run Sys2Proof.core n t := by
  have h' : Sys2Proof.core.step s = .next t := h
  simp only [Host.Core.run, h']

/-- A run without reset ends within the edges of its script and its work, and no edge of it changes what it will be
observed to be. -/
theorem run_ends (n : Nat) {s : State} (hs : Inv s) (hscript : ∀ e ∈ s.script, e.rst = false)
    (hn : s.script.length + s.work ≤ n) :
    ∃ t, Host.Core.run Sys2Proof.core n s = .next t ∧ t.Ended ∧ t.predicted = s.predicted := by
  induction n generalizing s with
  | zero => exact ⟨s, rfl, State.work_eq_zero_iff.mp (by omega), rfl⟩
  | succ n ih =>
    have hr := State.rst_of_script hscript
    obtain ⟨u, hu⟩ := step_next_of_inv hs
    have hscript' : ∀ e ∈ u.script, e.rst = false := fun e he =>
      hscript e (List.mem_of_mem_tail (step_script hu ▸ he))
    obtain ⟨t, hrun, hend, hpredicted⟩ :=
      ih (invariantIsKeptByEveryStep s u hs hu) hscript' (step_script_length_add_work hs hr hu hn)
    exact ⟨t, (run_succ_of_step hu n).trans hrun, hend, hpredicted.trans (step_keeps_predicted hr hu)⟩

/-- Of a state whose run has ended just what it holds will be observed. -/
theorem State.Ended.predicted_eq {s : State} (h : s.Ended) : s.predicted = some s.observe := by
  obtain ⟨hstream, hf, _⟩ := h
  have hpending : s.pending = [] := by rw [State.pending_of_idle hf, hstream]
  rw [State.predicted_eq_observed, hpending]
  rfl

/-- A run observed to its end has one response for every command that was pending and those there were before (R45). -/
theorem State.responses_length_of_predicted {s : State} {o : Observation} (h : s.predicted = some o) :
    o.responses.length = s.responses.length + s.pending.length := by
  rw [State.predicted_eq_observed] at h
  cases hrun : runStream s.pending s with
  | next u =>
    rw [hrun] at h
    cases h
    exact runStream_responses_length hrun
  | fault r =>
    rw [hrun] at h
    cases h
  | refused r =>
    rw [hrun] at h
    cases h

end Sys2Proof.Machine

open Sys2Proof Sys2Proof.Machine

/-- Settles O52: an edge without reset leaves a state that runs alike, or it runs the first pending word as the sequential
reading does. -/
theorem noScheduleChangesWhatARunIsObservedToBe : Obligations.NoScheduleChangesWhatARunIsObservedToBe :=
  fun _ _ => step_keeps_predicted

/-- Settles O15: GET and QUANTIZE write nothing and read what only a BUILD writes; a second write repeats the first. -/
theorem readsArePureAndWritesAreIdempotent : Obligations.ReadsArePureAndWritesAreIdempotent := by
  refine ⟨fun s t idx x h => ?_, fun s t u v i j hi hj ht hu hv => ?_, fun s t u i hi => exec_write_idempotent hi⟩
  · rcases h with h | h
    · exact exec_read_frame (x := x) (.inl rfl) h
    · exact exec_read_frame (.inr rfl) h
  · obtain ⟨idx, x, hread⟩ : ∃ idx x, i = .get idx ∨ i = .quantize idx x := by
      rcases hi with ⟨idx, rfl⟩ | ⟨idx, x, rfl⟩
      · exact ⟨idx, 0, .inl rfl⟩
      · exact ⟨idx, x, .inr rfl⟩
    obtain ⟨hsteps, hbuilt, hcfg⟩ := exec_keeps_read_inputs hj ht
    obtain ⟨rsp, errors, he⟩ := exec_read_of_same_inputs hread hu
    rw [he s rfl rfl rfl, Host.Outcome.next.injEq] at hu
    rw [he t hbuilt hcfg (by rw [hsteps]), Host.Outcome.next.injEq] at hv
    subst hu hv
    exact ⟨rsp, rfl, rfl⟩

/-- Settles O43: transfers move responses and lose none; only the answer to the command in flight adds one, and then
nothing is in flight. -/
theorem responsesGrowByOnePerCommandInOrder : Obligations.ResponsesGrowByOnePerCommandInOrder := by
  intro s t hr h
  rcases step_cases h with ⟨hr', _⟩ | ⟨_, hf, rfl⟩ | ⟨f, _, hf, _, hw⟩ | ⟨f, _, hf, _, rfl⟩
  · simp [hr] at hr'
  · exact .inl ⟨s.transfer_responses, fun f hf' => by simp [hf] at hf'⟩
  · obtain ⟨rsp, hrsp⟩ := runWord_responses hw
    obtain ⟨_, hflight, _⟩ := runWord_frame hw
    rw [State.beginCompletion_responses] at hrsp
    exact .inr ⟨f, rsp, hf, hrsp, fun f' hf' => by simp [hflight] at hf'⟩
  · refine .inl ⟨s.transfer_responses, fun f' hf' => ⟨_, s.keepInFlight_inFlight f, ?_⟩⟩
    obtain rfl : f = f' := by simpa [hf] using hf'
    rfl

/-- Settles O54: the run ends within its edges, each of which keeps what will be observed, and the sequential reading has
one response for every word. -/
theorem everyCommandStreamIsAnsweredAndEnds : Obligations.EveryCommandStreamIsAnsweredAndEnds := by
  intro s hs hscript
  obtain ⟨t, hrun, hend, hpredicted⟩ := run_ends _ hs hscript le_rfl
  have hobserved : s.predicted = some t.observe := hpredicted.symm.trans hend.predicted_eq
  have hlength : (t.taken ++ t.rspBuf).length = (s.taken ++ s.rspBuf).length + s.pending.length :=
    State.responses_length_of_predicted hobserved
  have ⟨_, _, hbuf⟩ := hend
  exact ⟨t, hrun, hend, hobserved, by simpa [hbuf] using hlength⟩

end

section
/-! PROOFS of the family 30_encoding: the reserved bits and the rows of the opcode map as fields of a word, the word of
R71 that each field is read back from, the response of a command without a result, and the assembler. -/

namespace Sys2Proof

/-! ### The reserved bits of each opcode, as fields (R66) -/

theorem getLsbD_bitsAt (lo n i : Nat) : (bitsAt lo n : Word).getLsbD i = decide (i < 32 ∧ lo ≤ i ∧ i < lo + n) := by
  rw [Bool.eq_iff_iff]
  simp [bitsAt]
  omega

/-- The mask of a field's bits finds no 1 exactly when the field is 0. -/
theorem and_bitsAt_eq_zero_iff (w : Word) (lo n : Nat) : w &&& bitsAt lo n = 0#32 ↔ w.extractLsb' lo n = 0#n := by
  constructor
  · intro h
    refine BitVec.eq_of_getLsbD_eq fun i hi => ?_
    have hbit : (w &&& bitsAt lo n).getLsbD (lo + i) = false := by rw [h, BitVec.getLsbD_zero]
    have hlt : w.getLsbD (lo + i) = true → lo + i < 32 := BitVec.lt_of_getLsbD
    rw [BitVec.getLsbD_and, getLsbD_bitsAt] at hbit
    rw [BitVec.getLsbD_extractLsb', BitVec.getLsbD_zero]
    grind
  · intro h
    refine BitVec.eq_of_getLsbD_eq fun i hi => ?_
    have hbit : (w.extractLsb' lo n).getLsbD (i - lo) = false := by rw [h, BitVec.getLsbD_zero]
    rw [BitVec.getLsbD_extractLsb'] at hbit
    rw [BitVec.getLsbD_and, getLsbD_bitsAt, BitVec.getLsbD_zero]
    grind

namespace Opcode

theorem clear_loadCustom_iff (w : Word) :
    w &&& loadCustom.reservedMask = 0#32 ↔ w.extractLsb' 24 8 = 0#8 ∧ w.extractLsb' 10 6 = 0#6 := by
  rw [show loadCustom.reservedMask = (bitsAt 24 8 ||| bitsAt 10 6 : Word) by decide, BitVec.and_or_distrib_left,
    BitVec.or_eq_zero_iff, and_bitsAt_eq_zero_iff, and_bitsAt_eq_zero_iff]

theorem clear_buildDefault_iff (w : Word) : w &&& buildDefault.reservedMask = 0#32 ↔ w.extractLsb' 5 11 = 0#11 := by
  rw [show buildDefault.reservedMask = (bitsAt 5 11 : Word) by decide, and_bitsAt_eq_zero_iff]

theorem clear_buildCustom_iff (w : Word) : w &&& buildCustom.reservedMask = 0#32 ↔ w.extractLsb' 4 28 = 0#28 := by
  rw [show buildCustom.reservedMask = (bitsAt 4 28 : Word) by decide, and_bitsAt_eq_zero_iff]

theorem clear_get_iff (w : Word) : w &&& get.reservedMask = 0#32 ↔ w.extractLsb' 10 22 = 0#22 := by
  rw [show get.reservedMask = (bitsAt 10 22 : Word) by decide, and_bitsAt_eq_zero_iff]

theorem clear_quantize_iff (w : Word) : w &&& quantize.reservedMask = 0#32 ↔ w.extractLsb' 10 6 = 0#6 := by
  rw [show quantize.reservedMask = (bitsAt 10 6 : Word) by decide, and_bitsAt_eq_zero_iff]

end Opcode

/-! ### The rows of the opcode map (R69) -/

/-- A word holds a value in OP exactly when its four lowest bits are that value. -/
theorem opField_eq_iff (w : Word) (b : BitVec 4) : opField w = b ↔ w &&& bitsAt 0 4 = b.setWidth 32 := by
  have hmask : w &&& bitsAt 0 4 = (opField w).setWidth 32 := by
    refine BitVec.eq_of_getLsbD_eq fun i hi => ?_
    rw [BitVec.getLsbD_and, getLsbD_bitsAt, BitVec.getLsbD_setWidth, opField, BitVec.getLsbD_extractLsb']
    grind
  rw [hmask]
  constructor
  · rintro rfl
    rfl
  · intro h
    simpa using congrArg (BitVec.setWidth 4) h

/-- A word matches a row exactly when it has the row's opcode and none of its reserved bits (R69). -/
theorem Opcode.matches_iff (op : Opcode) (w : Word) :
    w &&& op.rowMask = op.rowMatch ↔ opField w = op.bits ∧ w &&& op.reservedMask = 0#32 := by
  have hop : op.rowMask &&& bitsAt 0 4 = bitsAt 0 4 ∧ op.rowMatch &&& bitsAt 0 4 = op.rowMatch := by
    cases op <;> decide
  have hreserved : op.rowMask &&& op.reservedMask = op.reservedMask ∧ op.rowMatch &&& op.reservedMask = 0#32 := by
    cases op <;> decide
  rw [opField_eq_iff]
  constructor
  · intro h
    constructor
    · rw [← hop.1, ← BitVec.and_assoc, h, hop.2]
      rfl
    · rw [← hreserved.1, ← BitVec.and_assoc, h, hreserved.2]
  · rintro ⟨hbits, hclear⟩
    rw [rowMask, BitVec.and_or_distrib_left, hbits, hclear]
    exact BitVec.or_zero

/-- A word that matches a row decodes to the row's command with the word's operands. -/
theorem decode_of_matches {op : Opcode} {w : Word} (h : w &&& op.rowMask = op.rowMatch) :
    decode w = .ok (op.operands w) := by
  obtain ⟨hop, hclear⟩ := (op.matches_iff w).mp h
  exact decode_ok_iff.mpr ⟨op, by rw [hop, Opcode.ofBits_bits], hclear, rfl⟩

/-- A word that decodes to a command matches the command's row and holds its operands. -/
theorem matches_of_decode {w : Word} {i : Instr} (h : decode w = .ok i) :
    w &&& i.opcode.rowMask = i.opcode.rowMatch ∧ i.opcode.operands w = i := by
  obtain ⟨op, hop, hclear, rfl⟩ := decode_ok_iff.mp h
  rw [Opcode.opcode_operands]
  exact ⟨(op.matches_iff w).mpr ⟨Opcode.bits_of_ofBits hop, hclear⟩, rfl⟩

/-- The values of OP that stand for no opcode (R70). -/
theorem Opcode.ofBits_eq_none_iff (b : BitVec 4) : Opcode.ofBits b = none ↔ b.toNat = 0 ∨ 6 ≤ b.toNat := by
  revert b; decide

/-! ### The words of R71 as numbers -/

theorem toNat_field (w : Word) (lo n : Nat) : (w.extractLsb' lo n).toNat = w.toNat / 2 ^ lo % 2 ^ n := by
  rw [BitVec.extractLsb'_toNat, Nat.shiftRight_eq_div_pow]

theorem toNat_encode_loadCustom (idx : Index) (byte : Byte) :
    (encode (.loadCustom idx byte)).toNat = byte.toNat * 65536 + idx.val * 16 + 1 := by
  have hidx : idx.val < 64 := idx.isLt
  simp only [encode_loadCustom, toNat_concat, BitVec.toNat_ofNat]
  omega

theorem toNat_encode_buildDefault (channel : Channel) (quality : Int) :
    (encode (.buildDefault channel quality : Instr)).toNat =
      (BitVec.ofInt 16 quality).toNat * 65536 + channel.bit.toNat * 16 + 2 := by
  simp only [encode_buildDefault, toNat_concat, BitVec.toNat_ofNat]
  omega

theorem toNat_encode_get (idx : Index) : (encode (.get idx)).toNat = idx.val * 16 + 4 := by
  have hidx : idx.val < 64 := idx.isLt
  simp only [encode_get, toNat_concat, BitVec.toNat_ofNat]
  omega

theorem toNat_encode_quantize (idx : Index) (value : Int) :
    (encode (.quantize idx value)).toNat = (BitVec.ofInt 16 value).toNat * 65536 + idx.val * 16 + 5 := by
  have hidx : idx.val < 64 := idx.isLt
  simp only [encode_quantize, toNat_concat, BitVec.toNat_ofNat]
  omega

/-! ### The operands of a word (R61) -/

theorem ofNat_indexField (w : Word) : BitVec.ofNat 6 (indexField w).val = w.extractLsb' 4 6 := by
  rw [indexField_val, BitVec.ofNat_toNat, BitVec.setWidth_eq]

theorem indexField_eq {w : Word} {idx : Index} (h : w.toNat / 16 % 64 = idx.val) : indexField w = idx := by
  apply Fin.ext
  rw [indexField_val, toNat_field]
  exact h

theorem bit_lumaField (w : Word) : (lumaField w).bit = w.extractLsb' 4 1 := by
  refine BitVec.eq_of_getLsbD_eq fun i hi => ?_
  obtain rfl : i = 0 := by omega
  unfold lumaField
  split <;> simp_all [Channel.bit]

theorem Channel.bit_injective {c d : Channel} (h : c.bit = d.bit) : c = d := by
  revert c d
  rintro (_ | _) (_ | _) <;> decide

theorem lumaField_eq {w : Word} {channel : Channel} (h : w.toNat / 16 % 2 = channel.bit.toNat) :
    lumaField w = channel := by
  apply Channel.bit_injective
  rw [bit_lumaField]
  apply BitVec.eq_of_toNat_eq
  rw [toNat_field]
  exact h

/-- A number that fits 16 bits signed is read back from a top field that holds it (R65). -/
theorem topField_eq {w : Word} {x : Int} (hx : fitsSigned 16 x = true)
    (h : w.toNat / 65536 % 65536 = (BitVec.ofInt 16 x).toNat) : topField 16 w = x := by
  rw [fitsSigned_16, decide_eq_true_eq] at hx
  obtain ⟨hlo, hhi⟩ := hx
  have hfield : w.extractLsb' 16 16 = BitVec.ofInt 16 x := BitVec.eq_of_toNat_eq <| by rw [toNat_field]; exact h
  show (w.extractLsb' 16 16).toInt = x
  rw [hfield]
  exact Machine.toInt_toSigned hlo hhi

/-- The word of a well-formed command holds the command's operands in the fields of its opcode. -/
theorem operands_encode {i : Instr} (h : i.wf = true) : i.opcode.operands (encode i) = i := by
  cases i with
  | loadCustom idx byte =>
    have hidx : idx.val < 64 := idx.isLt
    have hindex : indexField (encode (.loadCustom idx byte)) = idx :=
      indexField_eq (by rw [toNat_encode_loadCustom]; omega)
    have hbyte : byteField (encode (.loadCustom idx byte)) = byte := BitVec.eq_of_toNat_eq <| by
      have := byte.isLt
      rw [byteField, toNat_field, toNat_encode_loadCustom]
      omega
    simp only [Instr.opcode, Opcode.operands, hindex, hbyte]
  | buildDefault channel quality =>
    have hbit : channel.bit.toNat < 2 := channel.bit.isLt
    have htop : (BitVec.ofInt 16 quality).toNat < 65536 := (BitVec.ofInt 16 quality).isLt
    have hluma : lumaField (encode (.buildDefault channel quality : Instr)) = channel :=
      lumaField_eq (by rw [toNat_encode_buildDefault]; omega)
    have hquality : qualityField (encode (.buildDefault channel quality : Instr)) = quality :=
      topField_eq h (by rw [toNat_encode_buildDefault]; omega)
    simp only [Instr.opcode, Opcode.operands, hluma, hquality]
  | buildCustom => rfl
  | get idx =>
    have hidx : idx.val < 64 := idx.isLt
    have hindex : indexField (encode (.get idx)) = idx := indexField_eq (by rw [toNat_encode_get]; omega)
    simp only [Instr.opcode, Opcode.operands, hindex]
  | quantize idx value =>
    have hidx : idx.val < 64 := idx.isLt
    have htop : (BitVec.ofInt 16 value).toNat < 65536 := (BitVec.ofInt 16 value).isLt
    have hindex : indexField (encode (.quantize idx value)) = idx :=
      indexField_eq (by rw [toNat_encode_quantize]; omega)
    have hvalue : valueField (encode (.quantize idx value)) = value :=
      topField_eq h (by rw [toNat_encode_quantize]; omega)
    simp only [Instr.opcode, Opcode.operands, hindex, hvalue]

/-- The word of a command matches the command's row. -/
theorem encode_matches (i : Instr) : encode i &&& i.opcode.rowMask = i.opcode.rowMatch := by
  cases i with
  | loadCustom idx byte => exact (Laws.EncodedFields.loadCustom idx byte).2
  | buildDefault channel quality => exact (Laws.EncodedFields.buildDefault channel quality).2
  | buildCustom => exact Laws.EncodedFields.buildCustom.2
  | get idx => exact (Laws.EncodedFields.get idx).2
  | quantize idx value => exact (Laws.EncodedFields.quantize idx value).2

theorem decode_encode {i : Instr} (h : i.wf = true) : decode (encode i) = .ok i := by
  rw [decode_of_matches (encode_matches i), operands_encode h]

/-! ### The word of the operands a word holds -/

theorem fitsSigned_toInt (x : BitVec 16) : fitsSigned 16 x.toInt = true := by
  have hle := x.le_two_mul_toInt
  have hlt := x.two_mul_toInt_lt
  rw [fitsSigned_16, decide_eq_true_eq]
  omega

theorem wf_operands (op : Opcode) (w : Word) : (op.operands w).wf = true := by
  cases op with
  | loadCustom => rfl
  | buildDefault => exact fitsSigned_toInt (w.extractLsb' 16 16)
  | buildCustom => rfl
  | get => rfl
  | quantize => exact fitsSigned_toInt (w.extractLsb' 16 16)

/-- Encoding the operands of a word that matches their row gives the word back: its reserved fields are the zeros of
R71. -/
theorem encode_operands {op : Opcode} {w : Word} (h : w &&& op.rowMask = op.rowMatch) : encode (op.operands w) = w := by
  obtain ⟨hop, hclear⟩ := (op.matches_iff w).mp h
  cases op with
  | loadCustom =>
    obtain ⟨hhigh, hlow⟩ := (Opcode.clear_loadCustom_iff w).mp hclear
    rw [Opcode.operands, encode_loadCustom, ofNat_indexField, byteField, ← hhigh, ← hlow,
      show 1#4 = w.extractLsb' 0 4 from hop.symm]
    iterate 4 rw [BitVec.extractLsb'_append_extractLsb'_eq_extractLsb' (by rfl)]
    exact BitVec.extractLsb'_eq_self
  | buildDefault =>
    rw [Opcode.operands, encode_buildDefault, bit_lumaField, qualityField_eq, BitVec.ofInt_toInt,
      ← (Opcode.clear_buildDefault_iff w).mp hclear, show 2#4 = w.extractLsb' 0 4 from hop.symm]
    iterate 3 rw [BitVec.extractLsb'_append_extractLsb'_eq_extractLsb' (by rfl)]
    exact BitVec.extractLsb'_eq_self
  | buildCustom =>
    rw [Opcode.operands, encode_buildCustom, ← (Opcode.clear_buildCustom_iff w).mp hclear,
      show 3#4 = w.extractLsb' 0 4 from hop.symm, BitVec.extractLsb'_append_extractLsb'_eq_extractLsb' (by rfl)]
    exact BitVec.extractLsb'_eq_self
  | get =>
    rw [Opcode.operands, encode_get, ofNat_indexField, ← (Opcode.clear_get_iff w).mp hclear,
      show 4#4 = w.extractLsb' 0 4 from hop.symm]
    iterate 2 rw [BitVec.extractLsb'_append_extractLsb'_eq_extractLsb' (by rfl)]
    exact BitVec.extractLsb'_eq_self
  | quantize =>
    rw [Opcode.operands, encode_quantize, ofNat_indexField, valueField_eq, BitVec.ofInt_toInt,
      ← (Opcode.clear_quantize_iff w).mp hclear, show 5#4 = w.extractLsb' 0 4 from hop.symm]
    iterate 3 rw [BitVec.extractLsb'_append_extractLsb'_eq_extractLsb' (by rfl)]
    exact BitVec.extractLsb'_eq_self

namespace Machine

/-! ### The response of a command without a result (R62) -/

/-- A command other than GET and QUANTIZE answers OK with result 0. -/
theorem exec_answers_noResult {i : Instr} (hi : ∀ idx x, i ≠ .get idx ∧ i ≠ .quantize idx x) {s t : State}
    (h : exec i s = .next t) : t.rspBuf = s.rspBuf ++ [responseWord .ok noResult] := by
  rcases instr_kinds i with hbuild | ⟨idx, byte, rfl⟩ | ⟨idx, x, rfl | rfl⟩
  · obtain ⟨k, hk, _⟩ := exec_build hbuild s
    rw [hk, Host.Outcome.next.injEq] at h
    rw [← h, State.respond_rspBuf, State.writeTable_rspBuf]
  · cases h
    rfl
  · exact absurd rfl (hi idx x).1
  · exact absurd rfl (hi idx x).2

/-- A response the block can produce has one of the four statuses, and result 0 with an error (R62, R68). -/
theorem LegalResponse.status {rsp : Response} (h : LegalResponse rsp) :
    (rsp.extractLsb' 24 8).toNat ≤ 3 ∧ (rsp.extractLsb' 24 8 ≠ 0x00#8 → rsp.extractLsb' 0 16 = 0#16) := by
  obtain ⟨_, hok | rfl | rfl | rfl⟩ := h
  · simp [hok]
  · decide
  · decide
  · decide

namespace Asm

/-! ### Assembled lines (R71) -/

theorem assemble_of_wf {l : AsmLine} (h : l.wf = true) : assemble l = some (words l) := if_pos h

theorem assemble_of_not_wf {l : AsmLine} (h : ¬l.wf = true) : assemble l = none := if_neg h

/-- A line in range gives its words and any other line is refused, the range stated as a proposition. -/
theorem assemble_eq_ite {l : AsmLine} {p : Prop} [Decidable p] {ws : List Word} (hwf : l.wf = true ↔ p)
    (hwords : p → words l = ws) : assemble l = if p then some ws else none := by
  by_cases h : p
  · rw [if_pos h, assemble_of_wf (hwf.mpr h), hwords h]
  · rw [if_neg h, assemble_of_not_wf (mt hwf.mp h)]

theorem wf_loadCustom_iff (idx byte : Int) : (AsmLine.loadCustom idx byte).wf = true ↔ IsIndex idx ∧ IsByte byte := by
  simp [AsmLine.wf, isBelow_64, fitsUnsigned_8]

theorem wf_buildDefault_iff (channel : Channel) (q : Int) : (AsmLine.buildDefault channel q).wf = true ↔ IsS16 q := by
  simp [AsmLine.wf, fitsSigned_16]

theorem wf_get_iff (idx : Int) : (AsmLine.get idx).wf = true ↔ IsIndex idx := by
  simp [AsmLine.wf, isBelow_64]

theorem wf_quantize_iff (idx x : Int) : (AsmLine.quantize idx x).wf = true ↔ IsIndex idx ∧ IsS16 x := by
  simp [AsmLine.wf, isBelow_64, fitsSigned_16]

theorem wf_word_iff (n : Int) : (AsmLine.word n).wf = true ↔ 0 ≤ n ∧ n < 2 ^ 32 := by
  simp [AsmLine.wf, fitsUnsigned_32]

theorem val_indexOf {idx : Int} (h : IsIndex idx) : ((indexOf idx).val : Int) = idx := by
  obtain ⟨hlo, hhi⟩ := h
  have hlt : idx.toNat < 64 := by omega
  rw [indexOf, Fin.val_ofNat, Nat.mod_eq_of_lt hlt]
  omega

theorem toNat_ofInt_word (x : Int) : (BitVec.ofInt 32 x : Word).toNat = (x % 4294967296).toNat :=
  BitVec.toNat_ofInt x

theorem encode_loadCustom_ofInt {idx byte : Int} (hidx : IsIndex idx) (hbyte : IsByte byte) :
    encode (.loadCustom (indexOf idx) (BitVec.ofInt 8 byte)) = BitVec.ofInt 32 (byte * 65536 + idx * 16 + 1) := by
  apply BitVec.eq_of_toNat_eq
  have hval := val_indexOf hidx
  rw [toNat_encode_loadCustom, BitVec.toNat_ofInt, toNat_ofInt_word]
  omega

theorem encode_buildDefault_ofInt (channel : Channel) (q : Int) :
    encode (.buildDefault channel q : Instr) = BitVec.ofInt 32 (q * 65536 + channel.bit.toNat * 16 + 2) := by
  apply BitVec.eq_of_toNat_eq
  rw [toNat_encode_buildDefault, BitVec.toNat_ofInt, toNat_ofInt_word]
  omega

theorem encode_get_ofInt {idx : Int} (hidx : IsIndex idx) :
    encode (.get (indexOf idx)) = BitVec.ofInt 32 (idx * 16 + 4) := by
  apply BitVec.eq_of_toNat_eq
  have hval := val_indexOf hidx
  rw [toNat_encode_get, toNat_ofInt_word]
  omega

theorem encode_quantize_ofInt {idx : Int} (hidx : IsIndex idx) (x : Int) :
    encode (.quantize (indexOf idx) x) = BitVec.ofInt 32 (x * 65536 + idx * 16 + 5) := by
  apply BitVec.eq_of_toNat_eq
  have hval := val_indexOf hidx
  rw [toNat_encode_quantize, BitVec.toNat_ofInt, toNat_ofInt_word]
  omega

/-! ### Pseudo-commands (R72) -/

/-- Entry `i` of a list of one word for every index is the word of `i`. -/
theorem getElem?_map_range {f : Nat → Word} {i : Nat} (h : i < 64) : (((List.range 64).map f)[i]?).toList = [f i] := by
  simp [h]

theorem wf_loadCustomTable_iff (bytes : List Int) :
    (AsmLine.loadCustomTable bytes).wf = true ↔ bytes.length = 64 ∧ ∀ b ∈ bytes, IsByte b := by
  simp [AsmLine.wf, fitsUnsigned_8]

theorem wf_buildCustomTable_iff (bytes : List Int) :
    (AsmLine.buildCustomTable bytes).wf = true ↔ bytes.length = 64 ∧ ∀ b ∈ bytes, IsByte b :=
  wf_loadCustomTable_iff bytes

theorem assemble_loadCustom {idx byte : Int} (hidx : IsIndex idx) (hbyte : IsByte byte) :
    assemble (.loadCustom idx byte) = some [loadCustomWord idx byte] :=
  assemble_of_wf ((wf_loadCustom_iff idx byte).mpr ⟨hidx, hbyte⟩)

theorem isByte_getD {bytes : List Int} (h : ∀ b ∈ bytes, IsByte b) (i : Nat) : IsByte (bytes.getD i 0) := by
  by_cases hi : i < bytes.length
  · rw [List.getD_eq_getElem _ _ hi]
    exact h _ (List.getElem_mem hi)
  · rw [List.getD_eq_default _ _ (Nat.le_of_not_lt hi)]
    decide

end Asm
end Machine

end Sys2Proof

open Sys2Proof Sys2Proof.Machine

/-- Settles O2: the word of a command matches the command's row, and each field of the row holds the operand it was made
of. -/
theorem decodeOfEncodeGivesTheCommandBack : Obligations.DecodeOfEncodeGivesTheCommandBack := fun _ => decode_encode

/-- Settles O3: a word that decodes matches the command's row and holds its operands, which with the row's zeros make up
the word. -/
theorem encodeOfDecodeGivesTheWordBack : Obligations.EncodeOfDecodeGivesTheWordBack := by
  intro w i h
  obtain ⟨hrow, hoperands⟩ := matches_of_decode h
  exact ⟨hoperands ▸ wf_operands i.opcode w, (congrArg encode hoperands).symm.trans (encode_operands hrow)⟩

/-- Settles O4: a word that matches a row decodes to the row's command with the word's operands and the other way around;
a word of no command is refused by its opcode alone, or else by a reserved bit. -/
theorem wordIsTheCommandWhoseRowItMatches : Obligations.WordIsTheCommandWhoseRowItMatches := by
  intro w
  refine ⟨?_, ?_, ?_, ?_, ?_, fun hno => ⟨fun hop => ?_, fun hop => ?_⟩⟩
  · rw [← Opcode.rowMask_loadCustom, ← Opcode.rowMatch_loadCustom]
    exact ⟨fun h => ⟨_, _, decode_of_matches h⟩, fun ⟨_, _, h⟩ => (matches_of_decode h).1⟩
  · rw [← Opcode.rowMask_buildDefault, ← Opcode.rowMatch_buildDefault]
    exact ⟨fun h => ⟨_, _, decode_of_matches h⟩, fun ⟨_, _, h⟩ => (matches_of_decode h).1⟩
  · rw [← Opcode.rowMask_buildCustom, ← Opcode.rowMatch_buildCustom]
    exact ⟨decode_of_matches, fun h => (matches_of_decode h).1⟩
  · rw [← Opcode.rowMask_get, ← Opcode.rowMatch_get]
    exact ⟨fun h => ⟨_, decode_of_matches h⟩, fun ⟨_, h⟩ => (matches_of_decode h).1⟩
  · rw [← Opcode.rowMask_quantize, ← Opcode.rowMatch_quantize]
    exact ⟨fun h => ⟨_, _, decode_of_matches h⟩, fun ⟨_, _, h⟩ => (matches_of_decode h).1⟩
  · match hd : decode w with
    | .ok i => exact absurd hd (hno i)
    | .error .reservedField => rfl
    | .error .illegalOp =>
      have hnone := (Opcode.ofBits_eq_none_iff _).mp (decode_illegalOp_iff.mp hd)
      rw [opField] at hnone
      omega
  · exact decode_illegalOp_iff.mpr ((Opcode.ofBits_eq_none_iff _).mpr hop)

/-- Settles O8: every word's run answers one response of the format, and it is 0 for a command without a result. -/
theorem everyWordAnswersOneResponseOfTheFormat : Obligations.EveryWordAnswersOneResponseOfTheFormat := by
  intro w s t h
  obtain ⟨rsp, hlegal, hbuf⟩ := runWord_answers_legalResponse h
  obtain ⟨hstatus, hresult⟩ := hlegal.status
  refine ⟨rsp, hbuf, hlegal.1, hstatus, hresult, fun i hd hi => ?_⟩
  rw [runWord_of_ok hd] at h
  have hzero := exec_answers_noResult hi h
  rw [hbuf, responseWord_error] at hzero
  simpa [Status.code] using hzero

/-- Settles O55: a line's operands are in range exactly when the assembler takes it, and its word is then the sum of its
fields at their places. -/
theorem assemblerEncodesInRangeAndRefusesOutOfRange : Obligations.AssemblerEncodesInRangeAndRefusesOutOfRange := by
  refine ⟨fun idx byte => ?_, fun q => ?_, fun q => ?_, rfl, fun idx => ?_, fun idx x => ?_, fun n => ?_⟩
  · exact Asm.assemble_eq_ite (Asm.wf_loadCustom_iff idx byte) fun ⟨hidx, hbyte⟩ =>
      congrArg ([·]) (Asm.encode_loadCustom_ofInt hidx hbyte)
  · exact Asm.assemble_eq_ite (Asm.wf_buildDefault_iff .luma q) fun _ =>
      congrArg ([·]) (Asm.encode_buildDefault_ofInt .luma q)
  · exact Asm.assemble_eq_ite (Asm.wf_buildDefault_iff .chroma q) fun _ =>
      congrArg ([·]) (by simpa [Channel.bit] using Asm.encode_buildDefault_ofInt .chroma q)
  · exact Asm.assemble_eq_ite (Asm.wf_get_iff idx) fun hidx => congrArg ([·]) (Asm.encode_get_ofInt hidx)
  · exact Asm.assemble_eq_ite (Asm.wf_quantize_iff idx x) fun ⟨hidx, _⟩ =>
      congrArg ([·]) (Asm.encode_quantize_ofInt hidx x)
  · exact Asm.assemble_eq_ite (Asm.wf_word_iff n) fun _ => rfl

/-- Settles O56: the words of a table are those of the single lines, one for every index in order. -/
theorem pseudoCommandsExpandExactly : Obligations.PseudoCommandsExpandExactly := by
  refine ⟨fun bytes hlen hbytes => ?_, ?_⟩
  · have hload := Asm.assemble_of_wf ((Asm.wf_loadCustomTable_iff bytes).mpr ⟨hlen, hbytes⟩)
    have hbuild := Asm.assemble_of_wf ((Asm.wf_buildCustomTable_iff bytes).mpr ⟨hlen, hbytes⟩)
    refine ⟨Asm.loadCustomTableWords bytes, hload, hbuild, ?_, fun i hi => ?_⟩
    · simp [Asm.loadCustomTableWords]
    · rw [Asm.loadCustomTableWords, Asm.getElem?_map_range hi]
      exact Asm.assemble_loadCustom ⟨by omega, by omega⟩ (Asm.isByte_getD hbytes i)
  · refine ⟨_, Asm.assemble_of_wf rfl, by simp [Asm.words], fun i hi => ?_⟩
    rw [Asm.words, Asm.getElem?_map_range hi]
    exact Asm.assemble_of_wf ((Asm.wf_get_iff i).mpr ⟨by omega, by omega⟩)

/-- Settles O1: each of the eleven words, encoded and decoded. -/
theorem exampleEncodingsAreTheCommandsTheyStandFor : Obligations.ExampleEncodingsAreTheCommandsTheyStandFor := by
  unfold Obligations.ExampleEncodingsAreTheCommandsTheyStandFor
  decide

end

section
/-! PROOFS of the family 40_table_build: the arithmetic of the construction, the words and the effects of LOAD_CUSTOM and
of the two BUILDs, what GET answers from a built table, and the laws of construction. -/

namespace Sys2Proof.Machine

/-! ### The quality and its scale (R81, R82) -/

theorem clampQ_of_le_one {q : Int} (h : q ≤ 1) : clampQ Config.qtb1 q = 1 := by
  simp only [clampQ, clamp, Config.qtb1_qMin, Config.qtb1_qMax]
  omega

theorem clampQ_of_hundred_le {q : Int} (h : 100 ≤ q) : clampQ Config.qtb1 q = 100 := by
  simp only [clampQ, clamp, Config.qtb1_qMin, Config.qtb1_qMax]
  omega

theorem clampQ_of_mem {q : Int} (h₁ : 1 ≤ q) (h₂ : q ≤ 100) : clampQ Config.qtb1 q = q := clamp_of_mem h₁ h₂

theorem clampQ_range (q : Int) : 1 ≤ clampQ Config.qtb1 q ∧ clampQ Config.qtb1 q ≤ 100 := clamp_range (by decide) q

theorem clampQ_clampQ (q : Int) : clampQ Config.qtb1 (clampQ Config.qtb1 q) = clampQ Config.qtb1 q :=
  clampQ_of_mem (clampQ_range q).1 (clampQ_range q).2

theorem scale_of_lt_fifty {qc : Int} (h : qc < 50) : scale qc = 5000 / qc := if_pos h

theorem scale_of_fifty_le {qc : Int} (h : 50 ≤ qc) : scale qc = 200 - 2 * qc := if_neg (by omega)

theorem scale_fifty : scale 50 = 100 := scale_of_fifty_le (by decide)

theorem scale_hundred : scale 100 = 0 := scale_of_fifty_le (by decide)

/-- The scale of a clamped quality lies in 0..5000 (R82). -/
theorem scale_range {qc : Int} (h₁ : 1 ≤ qc) (h₂ : qc ≤ 100) : 0 ≤ scale qc ∧ scale qc ≤ 5000 := by
  rcases lt_or_ge qc 50 with h | h
  · rw [scale_of_lt_fifty h]
    exact ⟨Int.ediv_nonneg (by omega) (by omega), Int.ediv_le_self qc (by omega)⟩
  · rw [scale_of_fifty_le h]
    omega

/-- The scale never grows with the quality: the quotients fall below 50, are at least 100 there, and the line from 50 on
starts at 100 and falls (R82, R94). -/
theorem scale_antitone {a b : Int} (ha : 1 ≤ a) (hab : a ≤ b) (hb : b ≤ 100) : scale b ≤ scale a := by
  rcases lt_or_ge a 50 with ha' | ha'
  · rw [scale_of_lt_fifty ha', Int.le_ediv_iff_mul_le (by omega)]
    rcases lt_or_ge b 50 with hb' | hb'
    · rw [scale_of_lt_fifty hb']
      calc 5000 / b * a ≤ 5000 / b * b := Int.mul_le_mul_of_nonneg_left hab (Int.ediv_nonneg (by omega) (by omega))
        _ ≤ 5000 := Int.ediv_mul_le 5000 (by omega)
    · rw [scale_of_fifty_le hb']
      calc (200 - 2 * b) * a ≤ 100 * a := Int.mul_le_mul_of_nonneg_right (by omega) (by omega)
        _ ≤ 5000 := by omega
  · rw [scale_of_fifty_le ha', scale_of_fifty_le (ha'.trans hab)]
    omega

/-! ### The scaled unscaled step (R83) -/

theorem newval_eq (v s : Int) : newval Config.qtb1 v s = max 1 (min 255 ((v * s + 50) / 100)) := rfl

/-- At scale 0 the unscaled step is 1, whatever the byte (R92). -/
theorem newval_scale_zero (v : Int) : newval Config.qtb1 v 0 = 1 := by
  rw [newval_eq]
  omega

/-- At scale 100 a byte in 1..255 is its own unscaled step (R93). -/
theorem newval_scale_hundred {v : Int} (h₁ : 1 ≤ v) (h₂ : v ≤ 255) : newval Config.qtb1 v 100 = v := by
  rw [newval_eq]
  omega

/-- The unscaled step of a byte never falls as the scale grows (R94). -/
theorem newval_mono {v s₁ s₂ : Int} (hv : 0 ≤ v) (hs : s₁ ≤ s₂) :
    newval Config.qtb1 v s₁ ≤ newval Config.qtb1 v s₂ := by
  have hprod : v * s₁ ≤ v * s₂ := Int.mul_le_mul_of_nonneg_left hs hv
  exact clamp_mono _ _ (by omega)

/-- The product of a byte and a scale is at most `255 * 5000` (R91). -/
theorem byte_mul_scale_le {v s : Int} (hv : v ≤ 255) (hs₁ : 0 ≤ s) (hs₂ : s ≤ 5000) : v * s ≤ 1275000 :=
  calc v * s ≤ 255 * s := Int.mul_le_mul_of_nonneg_right hv hs₁
    _ ≤ 1275000 := by omega

/-! ### The word of a row (R61, R123) -/

/-- A word with a row's opcode answers RESERVED_FIELD and does nothing else if a reserved bit is set, and else runs the
row's command with the word's operands. -/
theorem runWord_of_opField {op : Opcode} {w : Word} (hop : opField w = op.bits) (s : State) :
    (w &&& op.reservedMask ≠ 0#32 → AnswersError (runWord w s) s 0x02000000#32) ∧
    (w &&& op.reservedMask = 0#32 → runWord w s = exec (op.operands w) s) := by
  constructor
  · intro hreserved
    have hd : decode w = .error .reservedField := by
      simp only [decode, hop, Opcode.ofBits_bits]
      exact if_pos hreserved
    rw [runWord_of_error hd]
    exact ⟨_, rfl⟩
  · intro hclear
    exact runWord_of_ok (decode_of_matches ((op.matches_iff w).mpr ⟨hop, hclear⟩)) s

/-! ### LOAD_CUSTOM and the BUILDs, an effect each -/

theorem exec_loadCustom (idx : Index) (byte : Byte) (s : State) :
    exec (.loadCustom idx byte) s = .next ((s.writeCustom idx byte).respond noResult) := rfl

theorem exec_buildDefault (c : Channel) (q : Int) (s : State) :
    exec (.buildDefault c q) s =
      .next ((s.writeTable (defaultTable s.cfg.numbers (refTable s.cfg c) q)).respond noResult) := rfl

theorem exec_buildCustom (s : State) :
    exec .buildCustom s = .next ((s.writeTable (customTable s.cfg.numbers s.custom)).respond noResult) := rfl

theorem getElem_refTable (s : State) (c : Channel) (i : Index) : (refTable s.cfg c)[i] = s.refByte c i := by
  cases c <;> rfl

/-- BUILD_DEFAULT's effect with its table named by a variable, and the table's entries with the numbers of R7 (R90). -/
theorem exec_buildDefault_entries (c : Channel) (q : Int) (s : State) :
    ∃ k : Table StepBits, exec (.buildDefault c q) s = .next ((s.writeTable k).respond noResult) ∧
      (s.cfg.numbers = Config.qtb1 → ∀ i : Index,
        (k[i].toNat : Int) = 8 * newval Config.qtb1 (s.refByte c i).toNat (scale (clampQ Config.qtb1 q))) := by
  refine ⟨_, exec_buildDefault c q s, fun hn i => ?_⟩
  rw [hn, toNat_defaultTable, getElem_refTable]
  rfl

/-- BUILD_CUSTOM's effect with its table named by a variable, and the table's entries with the numbers of R7 (R95). -/
theorem exec_buildCustom_entries (s : State) :
    ∃ k : Table StepBits, exec .buildCustom s = .next ((s.writeTable k).respond noResult) ∧
      (s.cfg.numbers = Config.qtb1 → ∀ i : Index, k[i].toNat = 8 * max 1 s.custom[i].toNat) := by
  refine ⟨_, exec_buildCustom s, fun hn i => ?_⟩
  rw [hn, toNat_customTable]

/-- BUILD_DEFAULT looks at the quality through its clamp only (R81). -/
theorem exec_buildDefault_of_clampQ_eq {s : State} {q q' : Int}
    (h : clampQ s.cfg.numbers q = clampQ s.cfg.numbers q') (c : Channel) :
    exec (.buildDefault c q) s = exec (.buildDefault c q') s := by
  rw [exec_buildDefault, exec_buildDefault, defaultTable, defaultTable, h]

/-- States with the same reference bytes of a channel kind have the same reference table of it. -/
theorem refTable_eq_of_refByte_eq {s s' : State} {c : Channel} (h : ∀ i : Index, s.refByte c i = s'.refByte c i) :
    refTable s.cfg c = refTable s'.cfg c := by
  refine Vector.ext fun i hi => ?_
  have hbyte := h ⟨i, hi⟩
  rwa [← getElem_refTable, ← getElem_refTable] at hbyte

/-! ### GET from a table built with the numbers of R7 -/

/-- GET on a built table answers the step without its three low bits and changes nothing else (R100). -/
theorem exec_get_answered {s : State} (hb : s.built = true) (hn : s.cfg.numbers = Config.qtb1) (i : Index) :
    exec (.get i) s = .next (s.answered (BitVec.ofNat 32 (s.steps[i].toNat / 8))) := by
  have hword : (BitVec.ofNat 16 (s.steps[i].toNat / 8)).setWidth 32 = BitVec.ofNat 32 (s.steps[i].toNat / 8) := by
    have := s.steps[i].isLt
    apply BitVec.eq_of_toNat_eq
    simp only [BitVec.toNat_setWidth, BitVec.toNat_ofNat]
    omega
  rw [exec_get_of_built hb, hn, toUnsigned_unscaled, State.respond, State.emit, responseWord_ok, hword]
  rfl

/-- GET after a BUILD with the numbers of R7 answers the unscaled step of the built table's entry. -/
theorem exec_get_of_entry {s : State} {k : Table StepBits} {i : Index} {n : Nat} (hn : s.cfg.numbers = Config.qtb1)
    (hk : k[i].toNat = 8 * n) :
    exec (.get i) ((s.writeTable k).respond noResult) =
      .next (((s.writeTable k).respond noResult).answered (BitVec.ofNat 32 n)) := by
  rw [exec_get_answered (s := (s.writeTable k).respond noResult) rfl hn, State.respond_steps, State.writeTable_steps, hk,
    Nat.mul_div_cancel_left n (by omega)]

end Sys2Proof.Machine

open Sys2Proof Sys2Proof.Machine

/-- Settles O10: the table BUILD_DEFAULT writes has the entries of R83, and the word's fields are the command's
operands. -/
theorem buildDefaultBuildsEveryStepFromTheReferenceTable :
    Obligations.BuildDefaultBuildsEveryStepFromTheReferenceTable := by
  refine ⟨fun s c q => ?_, fun w s hop => ?_⟩
  · obtain ⟨k, hexec, hk⟩ := exec_buildDefault_entries c q s
    exact ⟨_, hexec, hk, rfl⟩
  · rw [← Opcode.reservedMask_buildDefault]
    exact runWord_of_opField (op := .buildDefault) hop s

/-- Settles O11: the table BUILD_CUSTOM writes has the entries of R84, and the word has no operand. -/
theorem buildCustomBuildsEveryStepFromTheStagingFile : Obligations.BuildCustomBuildsEveryStepFromTheStagingFile := by
  refine ⟨fun s => ?_, fun w s hop => ?_⟩
  · obtain ⟨k, hexec, hk⟩ := exec_buildCustom_entries s
    exact ⟨_, hexec, hk, rfl⟩
  · rw [← Opcode.reservedMask_buildCustom]
    exact runWord_of_opField (op := .buildCustom) hop s

/-- Settles O23: the range of each intermediate follows from that of the one before. -/
theorem buildDefaultIntermediatesFitTheirWidths : Obligations.BuildDefaultIntermediatesFitTheirWidths := by
  intro q b v qc n
  obtain ⟨hq₁, hq₂⟩ : 1 ≤ qc ∧ qc ≤ 100 := clampQ_range q
  obtain ⟨hs₁, hs₂⟩ := scale_range hq₁ hq₂
  have hprod : v * scale qc ≤ 1275000 := byte_mul_scale_le (byteValue_range b).2 hs₁ hs₂
  obtain ⟨hn₁, hn₂⟩ : 1 ≤ n ∧ n ≤ 255 := newval_range v (scale qc)
  omega

/-- Settles O24: from quality 100 on the scale is 0, and every unscaled step is 1. -/
theorem qualityHundredBuildsStepEight : Obligations.QualityHundredBuildsStepEight := by
  intro s c q hn hq
  obtain ⟨k, hexec, hk⟩ := exec_buildDefault_entries c q s
  refine ⟨_, hexec, fun i => ?_⟩
  have hi : k[i].toNat = 8 * 1 := by
    have hentry := hk hn i
    rw [clampQ_of_hundred_le hq, scale_hundred, newval_scale_zero] at hentry
    exact_mod_cast hentry
  exact ⟨BitVec.eq_of_toNat_eq hi, exec_get_of_entry hn hi⟩

/-- Settles O25: at quality 50 the scale is 100, and every unscaled step is the reference byte. -/
theorem qualityFiftyBuildsTheReferenceTable : Obligations.QualityFiftyBuildsTheReferenceTable := by
  intro s c hwf
  obtain ⟨k, hexec, hk⟩ := exec_buildDefault_entries c 50 s
  refine ⟨_, hexec, fun i => ?_⟩
  have hlo := State.one_le_refByte hwf c i
  have hhi := (s.refByte c i).isLt
  have hi : k[i].toNat = 8 * (s.refByte c i).toNat := by
    have hentry := hk hwf.numbers i
    rw [clampQ_of_mem (by decide) (by decide), scale_fifty, newval_scale_hundred (by omega) (by omega)] at hentry
    exact_mod_cast hentry
  refine ⟨hi, ?_⟩
  rw [exec_get_of_entry hwf.numbers hi, BitVec.ofNat_toNat]

/-- Settles O26: the clamp keeps the order of the qualities, the scale turns it round, and the unscaled step follows the
scale. -/
theorem unscaledStepNeverGrowsWithQuality : Obligations.UnscaledStepNeverGrowsWithQuality := by
  intro s c q₁ q₂ hn hq
  obtain ⟨k₁, hexec₁, hk₁⟩ := exec_buildDefault_entries c q₁ s
  obtain ⟨k₂, hexec₂, hk₂⟩ := exec_buildDefault_entries c q₂ s
  refine ⟨_, _, hexec₁, hexec₂, fun i => ?_⟩
  have hclamp : clampQ Config.qtb1 q₁ ≤ clampQ Config.qtb1 q₂ := clamp_mono _ _ hq
  have hscale := scale_antitone (clampQ_range q₁).1 hclamp (clampQ_range q₂).2
  have hnewval := newval_mono (Int.natCast_nonneg (s.refByte c i).toNat) hscale
  have hi₁ := hk₁ hn i
  have hi₂ := hk₂ hn i
  simp only [State.respond_steps, State.writeTable_steps]
  omega

/-- Settles O27: every entry of the table a BUILD writes is one of a built table. -/
theorem everyBuildGivesMultiplesOfEightInRange : Obligations.EveryBuildGivesMultiplesOfEightInRange := by
  intro s i hn hi
  obtain ⟨k, hexec, hok, _⟩ := exec_build hi s
  exact ⟨_, hexec, hok hn⟩

/-- Settles O9: LOAD_CUSTOM sets one entry of CUSTOM, and the word's fields are the command's operands. -/
theorem loadCustomWritesOneByteAndAnswersOk : Obligations.LoadCustomWritesOneByteAndAnswersOk := by
  refine ⟨fun s idx byte => ⟨_, exec_loadCustom idx byte s, ?_, fun j hj => ?_, rfl⟩,
    fun w s hop => ?_⟩
  · exact Vector.getElem_set_self idx.isLt
  · exact Vector.getElem_set_ne idx.isLt j.isLt fun h => hj (Fin.ext h.symm)
  · rw [← Opcode.reservedMask_loadCustom]
    obtain ⟨hreserved, hclear⟩ := runWord_of_opField (op := .loadCustom) hop s
    exact ⟨hreserved, fun h => ⟨indexField w, indexField_val w, hclear h⟩⟩

/-- Settles O22: the clamp and the scale, a case each. -/
theorem qualityIsClampedAndScaledInRange : Obligations.QualityIsClampedAndScaledInRange := by
  refine ⟨fun q => ⟨clampQ_of_le_one, clampQ_of_hundred_le, fun ⟨h₁, h₂⟩ => clampQ_of_mem h₁ h₂⟩,
    fun qc h₁ h₂ => ⟨scale_of_lt_fifty, scale_of_fifty_le, scale_range h₁ h₂⟩, ?_⟩
  decide

/-- Settles O28: in each pair the clamp makes the two qualities the same. -/
theorem outOfRangeQualityBuildsAsTheClampedOne : Obligations.OutOfRangeQualityBuildsAsTheClampedOne := by
  intro s c q hn
  refine ⟨?_, ?_, ?_⟩ <;> apply exec_buildDefault_of_clampQ_eq <;> rw [hn]
  · exact (clampQ_clampQ q).symm
  · rw [clampQ_of_le_one (by decide), clampQ_of_le_one (by decide)]
  · rw [clampQ_of_hundred_le (by decide), clampQ_of_hundred_le (by decide)]

/-- Settles O29: the table a BUILD writes is a function of the numbers and of what the BUILD reads. -/
theorem buildDependsOnlyOnWhatItReads : Obligations.BuildDependsOnlyOnWhatItReads := by
  intro s s' hn
  refine ⟨fun c q href => ⟨_, _, exec_buildDefault c q s, exec_buildDefault c q s', ?_⟩,
    fun hcustom => ⟨_, _, exec_buildCustom s, exec_buildCustom s', ?_⟩⟩
  · simp [hn, refTable_eq_of_refByte_eq href]
  · simp [hn, hcustom]

end

section
/-! PROOFS of the family 41_table_apply: the responses of GET and QUANTIZE as words, the words of their rows, and the
arithmetic of the rounded quotient. -/

namespace Sys2Proof.Machine

/-! ### OK responses -/

theorem State.respond_eq_answered (s : State) (r : Result) : s.respond r = s.answered (responseWord .ok r) := rfl

theorem State.answered_injective {s : State} {r r' : Response} (h : s.answered r = s.answered r') : r = r' := by
  have hbuf : s.rspBuf ++ [r] = s.rspBuf ++ [r'] := congrArg State.rspBuf h
  simpa using hbuf

/-- Of an OK response the half above the result is 0 (R62). -/
theorem high_responseWord_ok (r : Result) : (responseWord .ok r).extractLsb' 16 16 = 0#16 := by
  apply BitVec.eq_of_toNat_eq
  have := result_lt r
  rw [toNat_field, toNat_responseWord]
  simp only [Status.code, BitVec.toNat_ofNat]
  omega

/-! ### The words of GET and QUANTIZE (R61, R123, R124) -/

/-- A word of a command that reads a step answers RESERVED_FIELD if a reserved bit is set, else NOT_BUILT while BUILT = 0,
and else runs its row's command with the word's operands. -/
theorem runWord_read_of_opField {op : Opcode} {w : Word} {idx : Index} {x : Int} (hop : opField w = op.bits)
    (hread : op.operands w = .get idx ∨ op.operands w = .quantize idx x) (s : State) :
    (w &&& op.reservedMask ≠ 0#32 → AnswersError (runWord w s) s 0x02000000#32) ∧
    (w &&& op.reservedMask = 0#32 → s.built = false → AnswersError (runWord w s) s 0x03000000#32) ∧
    (w &&& op.reservedMask = 0#32 → s.built = true → runWord w s = exec (op.operands w) s) := by
  obtain ⟨hreserved, hclear⟩ := runWord_of_opField hop s
  refine ⟨hreserved, fun h hb => ?_, fun h _ => hclear h⟩
  rw [hclear h, exec_read_of_not_built hread hb]
  exact answersError_notBuilt s

/-! ### The rounded quotient (R105 to R109) -/

/-- The magnitude of the rounded quotient of `x` by `q`: `m` in the pseudocode of R105. -/
def quotientMagnitude (x : Int) (q : Nat) : Nat := (x.natAbs + q / 2) / q

theorem roundedQuotient_eq (x : Int) (q : Nat) :
    roundedQuotient x q = if x < 0 then -(quotientMagnitude x q : Int) else quotientMagnitude x q := by
  simp [roundedQuotient, quotientMagnitude]

theorem roundedQuotient_of_neg {x : Int} (h : x < 0) (q : Nat) : roundedQuotient x q = -(quotientMagnitude x q : Int) := by
  rw [roundedQuotient_eq, if_pos h]

theorem roundedQuotient_of_nonneg {x : Int} (h : 0 ≤ x) (q : Nat) : roundedQuotient x q = quotientMagnitude x q := by
  rw [roundedQuotient_eq, if_neg (by omega)]

theorem natAbs_roundedQuotient (x : Int) (q : Nat) : (roundedQuotient x q).natAbs = quotientMagnitude x q := by
  rw [roundedQuotient_eq]
  split
  · rw [Int.natAbs_neg, Int.natAbs_natCast]
  · rw [Int.natAbs_natCast]

theorem quotientMagnitude_neg (x : Int) (q : Nat) : quotientMagnitude (-x) q = quotientMagnitude x q := by
  rw [quotientMagnitude, Int.natAbs_neg, quotientMagnitude]

theorem quotientMagnitude_zero {q : Nat} (hq : 0 < q) : quotientMagnitude 0 q = 0 :=
  Nat.div_eq_of_lt (by rw [Int.natAbs_zero]; omega)

/-- The intermediate of QUANTIZE is at most `32768 + 1020` (R106). -/
theorem quotient_numerator_le {x : Int} {q : Nat} (hx : IsS16 x) (hq : q ≤ 2040) : x.natAbs + q / 2 ≤ 33788 := by
  obtain ⟨hlo, hhi⟩ := hx
  omega

/-- The magnitude is largest at the least step of a built table, 8 (R106). -/
theorem quotientMagnitude_le {x : Int} {q : Nat} (hx : IsS16 x) (hq : 8 ≤ q) : quotientMagnitude x q ≤ 4096 := by
  obtain ⟨hlo, hhi⟩ := hx
  exact Nat.le_of_lt_succ ((Nat.div_lt_iff_lt_mul (by omega)).mpr (by omega))

theorem roundedQuotient_range {x : Int} {q : Nat} (hx : IsS16 x) (hq : 8 ≤ q) :
    -4096 ≤ roundedQuotient x q ∧ roundedQuotient x q ≤ 4096 := by
  have hm := quotientMagnitude_le hx hq
  rw [← natAbs_roundedQuotient] at hm
  omega

/-- The magnitude times `q` is at most half a step above `|x|` and less than half a step below it (R107). -/
theorem quotientMagnitude_nearest (x : Int) {q : Nat} (hq : 0 < q) :
    2 * (quotientMagnitude x q * q) ≤ 2 * x.natAbs + q ∧ 2 * x.natAbs < 2 * (quotientMagnitude x q * q) + q := by
  have hle : quotientMagnitude x q * q ≤ x.natAbs + q / 2 := Nat.div_mul_le_self _ _
  have hlt : x.natAbs + q / 2 < quotientMagnitude x q * q + q := Nat.lt_div_mul_add hq
  omega

/-- The distance of the rounded quotient times `q` to `x` is that of the magnitudes. -/
theorem abs_sub_roundedQuotient_mul (x : Int) (q : Nat) :
    |x - roundedQuotient x q * q| = |(x.natAbs : Int) - (quotientMagnitude x q * q : Nat)| := by
  rcases lt_or_ge x 0 with h | h
  · rw [roundedQuotient_of_neg h, ← abs_neg]
    congr 1
    push_cast
    rw [abs_of_neg h]
    ring
  · rw [roundedQuotient_of_nonneg h, Int.natAbs_of_nonneg h, Nat.cast_mul]

theorem abs_roundedQuotient_mul (x : Int) (q : Nat) : |roundedQuotient x q * q| = (quotientMagnitude x q * q : Nat) := by
  rw [Int.abs_eq_natAbs, Int.natAbs_mul, natAbs_roundedQuotient, Int.natAbs_natCast]

/-- `x` is at most half a step away from the rounded quotient times `q`, and on the side of 0 in a tie (R107). -/
theorem roundedQuotient_nearest (x : Int) {q : Nat} (hq : 0 < q) :
    2 * |x - roundedQuotient x q * q| ≤ q ∧
      (2 * |x - roundedQuotient x q * q| = q → |x| < |roundedQuotient x q * q|) := by
  obtain ⟨hle, hlt⟩ := quotientMagnitude_nearest x hq
  rw [abs_sub_roundedQuotient_mul, abs_roundedQuotient_mul]
  simp only [Int.abs_eq_natAbs]
  omega

/-- The rounded quotient never has the sign opposite to `x` (R107). -/
theorem roundedQuotient_mul_self_nonneg (x : Int) (q : Nat) : 0 ≤ roundedQuotient x q * x := by
  rcases lt_or_ge x 0 with h | h
  · rw [roundedQuotient_of_neg h]
    exact Int.mul_nonneg_of_nonpos_of_nonpos (by omega) h.le
  · rw [roundedQuotient_of_nonneg h]
    exact Int.mul_nonneg (by omega) h

/-- The magnitude of the rounded quotient is the rational `|x| / q + 1/2` rounded down (R107). -/
theorem abs_roundedQuotient_eq_floor (x : Int) {q : Nat} (hq : 0 < q) :
    |roundedQuotient x q| = ⌊|(x : ℚ)| / (q : ℚ) + 1 / 2⌋ := by
  obtain ⟨hle, hlt⟩ := quotientMagnitude_nearest x hq
  have hpos : (0 : ℚ) < q := by exact_mod_cast hq
  have hle' : (2 : ℚ) * (quotientMagnitude x q * q) ≤ 2 * x.natAbs + q := by exact_mod_cast hle
  have hlt' : (2 : ℚ) * x.natAbs < 2 * (quotientMagnitude x q * q) + q := by exact_mod_cast hlt
  have hsum : (x.natAbs : ℚ) / q + 1 / 2 = (2 * x.natAbs + q) / (2 * q) := by field_simp
  rw [Int.abs_eq_natAbs, natAbs_roundedQuotient, ← Int.cast_abs, Int.abs_eq_natAbs, Int.cast_natCast, eq_comm,
    Int.floor_eq_iff, hsum, le_div_iff₀ (by positivity), div_lt_iff₀ (by positivity), Int.cast_natCast]
  constructor <;> linarith

/-- The rounded quotient is odd in `x` (R108). -/
theorem roundedQuotient_neg (x : Int) {q : Nat} (hq : 0 < q) : roundedQuotient (-x) q = -roundedQuotient x q := by
  rcases lt_trichotomy x 0 with h | rfl | h
  · rw [roundedQuotient_of_neg h, roundedQuotient_of_nonneg (by omega), quotientMagnitude_neg, neg_neg]
  · rw [neg_zero, roundedQuotient_of_nonneg le_rfl, quotientMagnitude_zero hq, Nat.cast_zero, neg_zero]
  · rw [roundedQuotient_of_nonneg h.le, roundedQuotient_of_neg (by omega), quotientMagnitude_neg]

/-- Half a step is less than 8, so eight times `x` comes back as `x` (R109). -/
theorem roundedQuotient_eight_mul (x : Int) : roundedQuotient (8 * x) (8 : Nat) = x := by
  rw [roundedQuotient_eq, quotientMagnitude]
  omega

/-! ### QUANTIZE by a step of a built table -/

theorem StepOk.ne_zero {k : StepBits} (h : StepOk k) : k ≠ 0#11 := by
  rintro rfl
  exact absurd h (by decide)

/-- QUANTIZE by a step that is not zero answers the rounded quotient's low 16 bits and changes nothing else (R105). -/
theorem exec_quantize_answered {s : State} {idx : Index} (hb : s.built = true) (hk : s.steps[idx] ≠ 0#11) (x : Int) :
    exec (.quantize idx x) s =
      .next (s.answered (responseWord .ok (BitVec.ofInt 16 (roundedQuotient x s.steps[idx].toNat)))) :=
  exec_quantize_of_step_ne_zero hb hk x

/-- By a step of a built table QUANTIZE of a 16-bit value answers an OK response whose signed result is the rounded quotient
itself: it fits the result field (R105, R106). -/
theorem exec_quantize_result {s : State} {idx : Index} {x : Int} (hb : s.built = true) (hk : StepOk s.steps[idx])
    (hx : IsS16 x) :
    ∃ r : Response, exec (.quantize idx x) s = .next (s.answered r) ∧ r.extractLsb' 16 16 = 0#16 ∧
      (r.extractLsb' 0 16).toInt = roundedQuotient x s.steps[idx].toNat := by
  obtain ⟨hlo, hhi⟩ := roundedQuotient_range hx hk.1
  refine ⟨_, exec_quantize_answered hb hk.ne_zero x, high_responseWord_ok _, ?_⟩
  exact (congrArg BitVec.toInt (resultField_responseWord _ _)).trans (toInt_toSigned (by omega) (by omega))

end Sys2Proof.Machine

open Sys2Proof Sys2Proof.Machine

/-- Settles O13: the result is the rounded quotient, by its magnitude and sign, and the word's fields are the command's
operands. -/
theorem quantizeAnswersTheRoundedQuotient : Obligations.QuantizeAnswersTheRoundedQuotient := by
  refine ⟨fun s idx x hb hk hx => ?_, fun w s hop => ?_⟩
  · obtain ⟨r, hexec, hhigh, hresult⟩ := exec_quantize_result hb hk hx
    exact ⟨r, hexec, hhigh, hresult.trans (roundedQuotient_eq x _)⟩
  · rw [← Opcode.reservedMask_quantize]
    obtain ⟨hreserved, hnotBuilt, hruns⟩ := runWord_read_of_opField (op := .quantize) hop (.inr rfl) s
    exact ⟨hreserved, hnotBuilt, fun hclear hb => ⟨indexField w, indexField_val w, hruns hclear hb⟩⟩

/-- Settles O30: each BUILD's entry is 8 times the unscaled step, which is what GET answers. -/
theorem getAfterBuildAnswersTheBuiltStep : Obligations.GetAfterBuildAnswersTheBuiltStep := by
  refine fun s i hn => ⟨?_, fun c q => ?_⟩
  · obtain ⟨k, hexec, hk⟩ := exec_buildCustom_entries s
    have hbyte := s.custom[i].isLt
    exact ⟨_, hexec, _, exec_get_of_entry hn (hk hn i), rfl, by omega, by omega⟩
  · obtain ⟨k, hexec, hk⟩ := exec_buildDefault_entries c q s
    obtain ⟨hlo, hhi⟩ := newval_range (s.refByte c i).toNat (scale (clampQ Config.qtb1 q))
    obtain ⟨n, hval⟩ := Int.eq_ofNat_of_zero_le (zero_le_one.trans hlo)
    have hentry := hk hn i
    exact ⟨_, hexec, n, exec_get_of_entry hn (by omega), hval.symm, by omega, by omega⟩

/-- Settles O31: the magnitude is largest at step 8. -/
theorem quantizeResultLiesInItsRange : Obligations.QuantizeResultLiesInItsRange := by
  intro s idx x hb hk hx
  obtain ⟨r, hexec, _, hresult⟩ := exec_quantize_result hb hk hx
  obtain ⟨hlo, hhi, _⟩ := hk
  exact ⟨quotient_numerator_le hx hhi, quotientMagnitude_le hx hlo, r, hexec, hresult ▸ roundedQuotient_range hx hlo⟩

/-- Settles O32: the magnitude times the step is within half a step of `|x|`, and above it in a tie; the sign is that of
`x`. -/
theorem quantizeRoundsToNearestTiesAwayFromZero : Obligations.QuantizeRoundsToNearestTiesAwayFromZero := by
  intro s idx x hb hk hx
  obtain ⟨r, hexec, _, hresult⟩ := exec_quantize_result hb hk hx
  have hq : 0 < s.steps[idx].toNat := lt_of_lt_of_le (by decide) hk.1
  obtain ⟨hnearest, htie⟩ := roundedQuotient_nearest x hq
  refine ⟨r, hexec, ?_⟩
  rw [hresult]
  exact ⟨hnearest, htie, roundedQuotient_mul_self_nonneg x _, abs_roundedQuotient_eq_floor x hq⟩

/-- Settles O33: the rounded quotient is odd. -/
theorem quantizeIsSignSymmetric : Obligations.QuantizeIsSignSymmetric := by
  intro s idx x hb hk hlo hhi
  obtain ⟨r, hexec, _, hresult⟩ := exec_quantize_result (x := x) hb hk ⟨by omega, by omega⟩
  obtain ⟨r', hexec', _, hresult'⟩ := exec_quantize_result (x := -x) hb hk ⟨by omega, by omega⟩
  refine ⟨r, r', hexec, hexec', ?_⟩
  rw [hresult', hresult, roundedQuotient_neg x (lt_of_lt_of_le (by decide) hk.1)]

/-- Settles O34: the rounded quotient of `8 * x` by 8 is `x`. -/
theorem quantizeAtStepEightRoundTrips : Obligations.QuantizeAtStepEightRoundTrips := by
  intro s idx x hb hk _ _
  have hstep : s.steps[idx].toNat = 8 := by rw [hk]; rfl
  rw [exec_quantize_answered hb (by rw [hk]; decide), hstep, roundedQuotient_eight_mul, responseWord_ok]

/-- Settles O35: a step of a built table is 8 times its eighth, which is what GET answers. -/
theorem quantizeDividesByEightTimesGet : Obligations.QuantizeDividesByEightTimesGet := by
  intro s idx x hn hb hk _
  obtain ⟨k, _, hhi, hstep⟩ := stepOk_iff.mp hk
  refine ⟨k, ?_, hhi, ?_⟩
  · rw [exec_get_answered hb hn, hstep, Nat.mul_div_cancel_left k (by decide)]
  · rw [exec_quantize_answered hb hk.ne_zero, responseWord_ok, hstep, roundedQuotient_eq, quotientMagnitude]

/-- Settles O12: GET answers an OK response, which with the numbers of R7 is the step without its three low bits, and the
word's field is the command's operand. -/
theorem getAnswersTheUnscaledStep : Obligations.GetAnswersTheUnscaledStep := by
  refine ⟨fun s idx hb => ?_, fun w s hop => ?_⟩
  · have hexec := exec_get_of_built hb idx
    rw [State.respond_eq_answered] at hexec
    refine ⟨_, hexec, statusField_responseWord _ _, fun hn => State.answered_injective (s := s) ?_⟩
    rwa [exec_get_answered hb hn, Host.Outcome.next.injEq, eq_comm] at hexec
  · rw [← Opcode.reservedMask_get]
    obtain ⟨hreserved, hnotBuilt, hruns⟩ := runWord_read_of_opField (op := .get) (x := 0) hop (.inl rfl) s
    exact ⟨hreserved, hnotBuilt, fun hclear hb => ⟨indexField w, indexField_val w, hruns hclear hb⟩⟩

end

section
/-! PROOFS of the family 60_exceptions: the three error causes of a word in their order, what an answer with status OK and
an error leave in the response buffer and in the fault record, and that nothing of an error lasts. -/

namespace Sys2Proof

/-! ### The opcode of a word and its reserved bits (R66, R70) -/

/-- A word whose OP is none of the reserved values holds the opcode of a row. -/
theorem exists_extractLsb'_eq_bits {w : Word} (h : 1 ≤ (w.extractLsb' 0 4).toNat ∧ (w.extractLsb' 0 4).toNat ≤ 5) :
    ∃ op : Opcode, w.extractLsb' 0 4 = op.bits := by
  cases hop : Opcode.ofBits (opField w) with
  | none =>
    have hreserved := (Opcode.ofBits_eq_none_iff _).mp hop
    rw [opField] at hreserved
    omega
  | some op => exact ⟨op, Opcode.bits_of_ofBits hop⟩

/-- The commands that read a step are those of the opcodes 4 and 5. -/
theorem Opcode.bits_read_iff (op : Opcode) (w : Word) :
    (op.bits.toNat = 4 ∨ op.bits.toNat = 5) ↔
      ∃ idx x, op.operands w = .get idx ∨ op.operands w = .quantize idx x := by
  cases op <;> simp [Opcode.bits, Opcode.operands]

namespace Machine

/-- The bits R66 demands to be zero are those of the reserved mask of the word's opcode. -/
theorem reservedBitsOf_eq {op : Opcode} {w : Word} (h : w.extractLsb' 0 4 = op.bits) :
    reservedBitsOf w = w &&& op.reservedMask := by
  rw [reservedBitsOf, h]
  cases op with
  | loadCustom => rw [Opcode.reservedMask_loadCustom]; rfl
  | buildDefault => rw [Opcode.reservedMask_buildDefault]; rfl
  | buildCustom => rw [Opcode.reservedMask_buildCustom]; rfl
  | get => rw [Opcode.reservedMask_get]; rfl
  | quantize => rw [Opcode.reservedMask_quantize]; rfl

/-- A word with a reserved opcode answers ILLEGAL_OP and does nothing else (R122). -/
theorem runWord_of_reserved_opcode {w : Word} (h : (w.extractLsb' 0 4).toNat = 0 ∨ 6 ≤ (w.extractLsb' 0 4).toNat)
    (s : State) : AnswersError (runWord w s) s 0x01000000#32 := by
  rw [runWord_of_error (decode_illegalOp_iff.mpr ((Opcode.ofBits_eq_none_iff _).mpr h))]
  exact ⟨_, rfl⟩

/-! ### Answers with status OK and errors -/

/-- `t` has one response more than `s`, of status OK, and the same fault record (R68, R127). -/
def AnsweredOk (s t : State) : Prop :=
  ∃ r : Result, t.rspBuf = s.rspBuf ++ [responseWord .ok r] ∧ t.faultRecord = s.faultRecord

/-- A command that answers does so with status OK, unless it is a GET or a QUANTIZE while BUILT = 0, which raises NOT_BUILT
(R124). -/
theorem exec_answers {i : Instr} {s t : State} (h : exec i s = .next t) :
    AnsweredOk s t ∨
      (∃ idx x, i = .get idx ∨ i = .quantize idx x) ∧ s.built = false ∧ t = s.raiseError .notBuilt := by
  rcases instr_kinds i with hi | ⟨idx, byte, rfl⟩ | ⟨idx, x, hread⟩
  · obtain ⟨k, hk, _⟩ := exec_build hi s
    rw [hk, Host.Outcome.next.injEq] at h
    subst h
    exact .inl ⟨noResult, rfl, rfl⟩
  · rw [exec_loadCustom, Host.Outcome.next.injEq] at h
    subst h
    exact .inl ⟨noResult, rfl, rfl⟩
  · cases hb : s.built with
    | true =>
      obtain ⟨r, hr⟩ := exec_read_of_built hread hb h
      rw [hr s hb rfl rfl, Host.Outcome.next.injEq] at h
      subst h
      exact .inl ⟨r, rfl, rfl⟩
    | false =>
      rw [exec_read_of_not_built hread hb, Host.Outcome.next.injEq] at h
      exact .inr ⟨⟨idx, x, hread⟩, rfl, h.symm⟩

/-- A word that answers does so with status OK, or raises an error (R121). -/
theorem runWord_answers {w : Word} {s t : State} (h : runWord w s = .next t) :
    AnsweredOk s t ∨ ∃ st, st ≠ .ok ∧ t = s.raiseError st := by
  rcases runWord_cases h with ⟨i, _, he⟩ | ⟨e, _, rfl⟩
  · rcases exec_answers he with hok | ⟨_, _, rfl⟩
    · exact .inl hok
    · exact .inr ⟨.notBuilt, by decide, rfl⟩
  · exact .inr ⟨errorStatus e, by cases e <;> decide, rfl⟩

/-- The status of a response word is the code it was made with (R62). -/
theorem status_responseWord (st : Status) (r : Result) : (responseWord st r).extractLsb' 24 8 = st.code :=
  statusField_responseWord st r

/-- Of the four statuses OK alone has the code 0 (R68). -/
theorem Status.code_ne_zero {st : Status} (h : st ≠ .ok) : st.code ≠ 0x00#8 := by
  cases st with
  | ok => exact absurd rfl h
  | illegalOp => decide
  | reservedField => decide
  | notBuilt => decide

/-- Below its status an error's response is 0 (R121). -/
theorem low_responseWord_noResult (st : Status) : (responseWord st noResult).extractLsb' 0 24 = 0#24 := by
  cases st <;> decide

/-! ### The next word after an error (R121) -/

/-- The two states hold the same in STEP, CUSTOM, BUILT and the parameters, which is all a command reads. -/
structure State.SameRegisters (s u : State) : Prop where
  steps : u.steps = s.steps
  custom : u.custom = s.custom
  built : u.built = s.built
  cfg : u.cfg = s.cfg

/-- An error writes no register (R121). -/
theorem State.sameRegisters_raiseError (s : State) (st : Status) : (s.raiseError st).SameRegisters s :=
  ⟨rfl, rfl, rfl, rfl⟩

/-- The runs from `s` to `t` and from `u` to `v` add the same response and leave the same registers. -/
structure SameEffect (s t u v : State) : Prop where
  response : ∃ rsp, t.rspBuf = s.rspBuf ++ [rsp] ∧ v.rspBuf = u.rspBuf ++ [rsp]
  registers : t.SameRegisters v

/-- From states with the same registers a command has the same effect. -/
theorem exec_of_sameRegisters {i : Instr} {s t u : State} (hsu : s.SameRegisters u) (h : exec i s = .next t) :
    ∃ v, exec i u = .next v ∧ SameEffect s t u v := by
  obtain ⟨hsteps, hcustom, hbuilt, hcfg⟩ := hsu
  rcases instr_kinds i with hi | ⟨idx, byte, rfl⟩ | ⟨idx, x, hread⟩
  · obtain ⟨k, _, hk⟩ := exec_build_of_same_inputs hi s
    rw [hk s rfl fun _ => rfl, Host.Outcome.next.injEq] at h
    subst h
    exact ⟨_, hk u hcfg fun _ => hcustom, ⟨_, rfl, rfl⟩, ⟨rfl, hcustom, rfl, hcfg⟩⟩
  · rw [exec_loadCustom, Host.Outcome.next.injEq] at h
    subst h
    exact ⟨_, exec_loadCustom idx byte u, ⟨_, rfl, rfl⟩, ⟨hsteps, by simp [hcustom], hbuilt, hcfg⟩⟩
  · obtain ⟨rsp, errors, he⟩ := exec_read_of_same_inputs hread h
    rw [he s rfl rfl rfl, Host.Outcome.next.injEq] at h
    subst h
    exact ⟨_, he u hbuilt hcfg (by rw [hsteps]), ⟨rsp, rfl, rfl⟩, ⟨hsteps, hcustom, hbuilt, hcfg⟩⟩

/-- From states with the same registers a word has the same effect. -/
theorem runWord_of_sameRegisters {w : Word} {s t u : State} (hsu : s.SameRegisters u) (h : runWord w s = .next t) :
    ∃ v, runWord w u = .next v ∧ SameEffect s t u v := by
  rcases runWord_cases h with ⟨i, hd, he⟩ | ⟨e, hd, rfl⟩
  · rw [runWord_of_ok hd]
    exact exec_of_sameRegisters hsu he
  · exact ⟨_, runWord_of_error hd u, ⟨_, rfl, rfl⟩, ⟨hsu.steps, hsu.custom, hsu.built, hsu.cfg⟩⟩

/-! ### The fault record at an edge (R127, entry 10) -/

/-- An edge without reset keeps the responses and the fault record; or it answers OK and keeps the fault record; or it
answers an error and adds its status. -/
theorem step_record {s t : State} (hr : s.rst = false) (h : step s = .next t) :
    (t.responses = s.responses ∧ t.faultRecord = s.faultRecord) ∨
    (∃ r : Result, t.responses = s.responses ++ [responseWord .ok r] ∧ t.faultRecord = s.faultRecord) ∨
    (∃ st, st ≠ .ok ∧ t.responses = s.responses ++ [responseWord st noResult] ∧
      t.faultRecord = s.faultRecord ++ [st]) := by
  rcases step_cases h with ⟨hr', _⟩ | ⟨_, _, rfl⟩ | ⟨f, _, _, _, hw⟩ | ⟨f, _, _, _, rfl⟩
  · simp [hr] at hr'
  · exact .inl ⟨s.transfer_responses, s.transfer_faultRecord⟩
  · have hrecord : s.beginCompletion.faultRecord = s.faultRecord := by simp
    rw [← s.beginCompletion_responses, ← hrecord]
    obtain ⟨_, _, _, _, htaken, _⟩ := runWord_frame hw
    rcases runWord_answers hw with ⟨r, hbuf, hkept⟩ | ⟨st, hst, rfl⟩
    · refine .inr (.inl ⟨r, ?_, hkept⟩)
      rw [State.responses, State.responses, htaken, hbuf, List.append_assoc]
    · refine .inr (.inr ⟨st, hst, ?_, rfl⟩)
      rw [State.responses, State.responses, State.raiseError_rspBuf, State.raiseError_taken, List.append_assoc]
  · exact .inl ⟨s.transfer_responses, s.transfer_faultRecord⟩

/-- No step removes a status from the fault record (R127). -/
theorem step_faultRecord_grows {s t : State} (h : step s = .next t) :
    ∃ errors, t.faultRecord = s.faultRecord ++ errors := by
  cases hr : s.rst with
  | true =>
    rw [step_of_rst hr, Host.Outcome.next.injEq] at h
    exact ⟨[], by simp [← h]⟩
  | false =>
    rcases step_record hr h with ⟨_, hkept⟩ | ⟨_, _, hkept⟩ | ⟨st, _, _, hadded⟩
    · exact ⟨[], by simp [hkept]⟩
    · exact ⟨[], by simp [hkept]⟩
    · exact ⟨[st], hadded⟩

end Machine

end Sys2Proof

open Sys2Proof Sys2Proof.Machine

/-- Settles O5: a word with no reserved opcode has a row's opcode, whose reserved mask and command decide the other two
causes; with none of them the row's command runs, and a command that is no read of an unbuilt table answers OK. -/
theorem errorCausesAnswerInOrderAndElseTheCommandRuns : Obligations.ErrorCausesAnswerInOrderAndElseTheCommandRuns := by
  refine fun w s => ⟨fun hop => runWord_of_reserved_opcode hop s, fun hop hreserved => ?_,
    fun hop hclear ⟨hread, hb⟩ => ?_, fun hop hclear hno => ?_⟩
  · obtain ⟨op, hbits⟩ := exists_extractLsb'_eq_bits hop
    exact (runWord_of_opField hbits s).1 (reservedBitsOf_eq hbits ▸ hreserved)
  · obtain ⟨op, hbits⟩ := exists_extractLsb'_eq_bits hop
    obtain ⟨idx, x, hoperands⟩ := (op.bits_read_iff w).mp (hbits ▸ hread)
    obtain ⟨_, hnotBuilt, _⟩ := runWord_read_of_opField hbits hoperands s
    exact hnotBuilt (reservedBitsOf_eq hbits ▸ hclear) hb
  · obtain ⟨op, hbits⟩ := exists_extractLsb'_eq_bits hop
    rw [reservedBitsOf_eq hbits] at hclear
    refine ⟨op.operands w, decode_of_matches ((op.matches_iff w).mpr ⟨hbits, hclear⟩),
      (runWord_of_opField hbits s).2 hclear, fun t h => ?_⟩
    rcases exec_answers h with ⟨r, hbuf, _⟩ | ⟨hread, hb, _⟩
    · exact ⟨_, hbuf, status_responseWord .ok r⟩
    · exact absurd ⟨hbits ▸ (op.bits_read_iff w).mpr hread, hb⟩ hno

/-- Settles O7: an answer of another status than OK is an error, which leaves the registers, and these are all that the
next word's effect rests on. -/
theorem errorResponseHasNoEffectAndIsNotSticky : Obligations.ErrorResponseHasNoEffectAndIsNotSticky := by
  intro w s t h
  rcases runWord_answers h with ⟨r, hbuf, _⟩ | ⟨st, _, rfl⟩
  · exact ⟨_, hbuf, fun hne => absurd (status_responseWord .ok r) hne⟩
  · refine ⟨_, rfl, fun _ => ⟨low_responseWord_noResult st, rfl, rfl, rfl, fun w' t' h' => ?_⟩⟩
    obtain ⟨u, hu, ⟨rsp, ht', hu'⟩, hsteps, hcustom, hbuilt, _⟩ :=
      runWord_of_sameRegisters (s.sameRegisters_raiseError st) h'
    exact ⟨u, rsp, hu, hu', ht', hsteps, hcustom, hbuilt⟩

/-- Settles O46: no step shortens the record, a reset edge keeps it, and at any other edge the status of the one new
response, if there is one, tells whether the record keeps it. -/
theorem faultRecordKeepsEveryErrorStatus : Obligations.FaultRecordKeepsEveryErrorStatus := by
  refine fun s t h => ⟨fun ht => ?_, fun hr => ?_, fun hr => ?_⟩
  · obtain ⟨errors, hgrows⟩ := step_faultRecord_grows h
    exact (List.append_eq_nil_iff.mp (hgrows.symm.trans ht)).1
  · rw [step_of_rst hr, Host.Outcome.next.injEq] at h
    simp [← h]
  · rcases step_record hr h with hnone | ⟨r, hrsp, hkept⟩ | ⟨st, hst, hrsp, hadded⟩
    · exact .inl hnone
    · exact .inr ⟨_, hrsp, fun _ => hkept, fun hne => absurd (status_responseWord .ok r) hne⟩
    · have hstatus := status_responseWord st noResult
      exact .inr ⟨_, hrsp, fun h0 => absurd (hstatus ▸ h0) (Status.code_ne_zero hst), fun _ => ⟨st, hstatus.symm, hadded⟩⟩

/-- Settles O51: a reset, an idle edge and a waiting command always pass, and with every step of a built table nonzero so
does an answer. -/
theorem noStepOfTheInvariantStops : Obligations.NoStepOfTheInvariantStops := fun _ => step_next_of_inv

/-- Settles O6: before a BUILD the rules of GET and QUANTIZE raise NOT_BUILT; every other answer has status OK. -/
theorem readsBeforeABuildAnswerNotBuilt : Obligations.ReadsBeforeABuildAnswerNotBuilt := by
  refine ⟨fun s idx x hb => ⟨?_, ?_⟩, fun s t i h hbuf => ?_⟩
  · rw [exec_get_of_not_built hb]
    exact answersError_notBuilt s
  · rw [exec_quantize_of_not_built hb]
    exact answersError_notBuilt s
  · rcases exec_answers h with ⟨r, hok, _⟩ | ⟨hread, hb, _⟩
    · rw [hbuf, List.append_cancel_left_eq, List.singleton_inj] at hok
      have hstatus := status_responseWord .ok r
      rw [← hok] at hstatus
      exact absurd hstatus (by decide)
    · refine ⟨hb, ?_⟩
      obtain ⟨idx, x, hget | hquantize⟩ := hread
      · exact .inl ⟨idx, hget⟩
      · exact .inr ⟨idx, x, hquantize⟩

end

section
/-! PROOFS of the family 70_reset_and_hazards: what an edge leaves on the two channels, the latency of a command in flight,
the reset edge, and the commands that follow a BUILD. -/

namespace Sys2Proof.Machine

/-! ### The channels at an edge (R147, R150) -/

/-- What an edge without reset leaves on the channels is what its transfers leave; an answer only adds behind the responses
that wait. -/
theorem step_channels {s t : State} (hr : s.rst = false) (h : step s = .next t) :
    t.stream = s.transfer.stream ∧ t.cmdHeld = s.transfer.cmdHeld ∧ t.taken = s.transfer.taken ∧
      ∃ l, t.rspBuf = s.transfer.rspBuf ++ l := by
  rcases step_cases h with ⟨hr', _⟩ | ⟨_, _, rfl⟩ | ⟨f, _, _, _, hw⟩ | ⟨f, _, _, _, rfl⟩
  · simp [hr] at hr'
  · exact ⟨rfl, rfl, rfl, [], by simp⟩
  · obtain ⟨_, _, hstream, hheld, htaken, _⟩ := runWord_frame hw
    obtain ⟨rsp, _, hbuf⟩ := runWord_answers_legalResponse hw
    exact ⟨hstream, hheld, htaken, [rsp], hbuf⟩
  · exact ⟨rfl, rfl, rfl, [], by simp⟩

/-- A command presented and accepted is the first word of the host's stream, which leaves it. -/
theorem State.transfer_of_accepts {s : State} (h : s.accepts = true) :
    ∃ w, s.cmdData = some w ∧ s.stream = w :: s.transfer.stream := by
  obtain ⟨_, hne, _⟩ := State.accepts_iff.mp h
  have hvalid : s.cmdValid = true := Bool.and_elim_left h
  obtain ⟨w, ws, hws⟩ := List.exists_cons_of_ne_nil hne
  exact ⟨w, by simp [State.cmdData, hvalid, hws], by simp [h, hws]⟩

/-- A response presented and taken is the oldest that waits, which goes to the host. -/
theorem State.transfer_of_takes {s : State} (h : s.takes = true) :
    ∃ r, s.rspData = some r ∧ s.transfer.taken = s.taken ++ [r] := by
  obtain ⟨_, hne, _⟩ := State.takes_iff.mp h
  have hvalid : s.rspValid = true := Bool.and_elim_left h
  obtain ⟨r, rs, hrs⟩ := List.exists_cons_of_ne_nil hne
  exact ⟨r, by simp [State.rspData, hvalid, hrs], by simp [h, hrs]⟩

/-- A host that holds its command presents the same word as before the edge (R147, R152). -/
theorem State.cmdData_of_held {s t : State} (hheld : t.cmdHeld = true) (hstream : t.stream = s.stream)
    (h : s.cmdValid = true) : t.cmdValid = true ∧ t.cmdData = s.cmdData := by
  have hne : s.stream.isEmpty = false := by simpa using Bool.and_elim_right h
  have hvalid : t.cmdValid = true := by simp [State.cmdValid, hheld, hstream, hne]
  exact ⟨hvalid, by rw [State.cmdData, State.cmdData, if_pos hvalid, if_pos h, hstream]⟩

/-- A block out of reset presents the same response as before the edge, if others only joined behind it (R147). -/
theorem State.rspData_of_append {s t : State} {l : List Response} (hbuf : t.rspBuf = s.rspBuf ++ l)
    (hr : t.rst = false) (h : s.rspValid = true) : t.rspValid = true ∧ t.rspData = s.rspData := by
  have hne : s.rspBuf ≠ [] := by simpa using Bool.and_elim_right h
  have hvalid : t.rspValid = true := by simp [State.rspValid, hr, hbuf, hne]
  exact ⟨hvalid, by rw [State.rspData, State.rspData, if_pos hvalid, if_pos h, hbuf, List.head?_append_of_ne_nil _ hne]⟩

/-- At an edge at which no command is accepted the host's stream stays, reset or not. -/
theorem step_keeps_stream {s t : State} (hacc : s.accepts = false) (h : step s = .next t) : t.stream = s.stream := by
  cases hr : s.rst with
  | true =>
    rw [step_of_rst hr, Host.Outcome.next.injEq] at h
    simp [← h]
  | false =>
    obtain ⟨hstream, _⟩ := step_channels hr h
    simp [hstream, hacc]

/-- An edge without reset keeps the responses, taken and waiting, in their order: they only grow at their end (R45). -/
theorem step_responses_grow {s t : State} (hr : s.rst = false) (h : step s = .next t) :
    ∃ l, t.responses = s.responses ++ l := by
  obtain ⟨_, _, htaken, l, hbuf⟩ := step_channels hr h
  exact ⟨l, by rw [State.responses, htaken, hbuf, ← List.append_assoc, s.transfer_responses, State.responses]⟩

/-- A block with parameters R7 allows has a response waiting while its buffer is full (R150). -/
theorem State.rspBuf_ne_nil_of_full {s : State} (hcfg : s.cfg.WF) (hfull : s.hasRoom = false) : s.rspBuf ≠ [] := by
  intro hbuf
  have hroom : s.hasRoom = true := State.hasRoom_iff.mpr (by rw [hbuf]; exact hcfg.depth)
  simp [hfull] at hroom

/-! ### The latency of a command in flight (R148) -/

theorem latencyBound_of_isBuild (p : Config.Params) {w : Word} {i : Instr} (hd : decode w = .ok i) (hi : IsBuild i) :
    latencyBound p w = p.latBuild := by
  rcases hi with ⟨c, q, rfl⟩ | rfl <;> simp [latencyBound, hd]

theorem latencyBound_of_not_isBuild (p : Config.Params) {w : Word} (h : ¬∃ i, decode w = .ok i ∧ IsBuild i) :
    latencyBound p w = p.latOp := by
  unfold latencyBound
  split
  · exact absurd ⟨_, ‹_›, .inl ⟨_, _, rfl⟩⟩ h
  · exact absurd ⟨_, ‹_›, .inr rfl⟩ h
  · rfl

/-- A latency bound is at least one edge (entry 5). -/
theorem one_le_latencyBound {p : Config.Params} (hp : p.WF) (w : Word) : 1 ≤ latencyBound p w := by
  by_cases h : ∃ i, decode w = .ok i ∧ IsBuild i
  · obtain ⟨i, hd, hi⟩ := h
    exact latencyBound_of_isBuild p hd hi ▸ hp.latBuild
  · exact latencyBound_of_not_isBuild p h ▸ hp.latOp

/-- A script whose first entry is no reset has none at the coming edge. -/
theorem State.rst_of_take_script {s : State} {n : Nat} (h : ∀ e ∈ s.script.take (n + 1), e.rst = false) :
    s.rst = false := by
  unfold State.rst State.edge
  cases hs : s.script with
  | nil => rfl
  | cons e es => exact h e (by simp [hs])

/-- A command that enters the block at an edge has age 0 (entry 5). -/
theorem step_accepts_age_zero {s t : State} {f : Flight} (hs : s.inFlight = none) (h : step s = .next t)
    (ht : t.inFlight = some f) : f.age = 0 := by
  rcases step_cases h with ⟨_, rfl⟩ | ⟨_, _, rfl⟩ | ⟨f', _, hf', _⟩ | ⟨f', _, hf', _⟩
  · simp at ht
  · rw [State.transfer_inFlight, hs] at ht
    split at ht
    · obtain ⟨_, _, rfl⟩ := Option.map_eq_some_iff.mp ht
      rfl
    · cases ht
  · simp [hs] at hf'
  · simp [hs] at hf'

/-- An edge at which the command in flight waits keeps the responses, taken and waiting (R45). -/
theorem State.keepInFlight_responses (s : State) (f : Flight) : (s.keepInFlight f).responses = s.responses :=
  s.transfer_responses

/-- An edge without reset answers the command in flight, or its latency bound lies further ahead and it stays (R148). -/
theorem step_answers_or_waits {s : State} {f : Flight} (hs : Inv s) (hr : s.rst = false) (hf : s.inFlight = some f) :
    (∃ t r, step s = .next t ∧ t.inFlight = none ∧ t.responses = s.responses ++ [r]) ∨
      (f.age + 1 < latencyBound s.cfg f.word ∧ step s = .next (s.keepInFlight f)) := by
  obtain ⟨t, ht⟩ := step_next_of_inv hs
  rcases step_cases ht with ⟨hr', _⟩ | ⟨_, hnone, _⟩ | ⟨f', _, _, _, hw⟩ | ⟨f', _, hf', hc, rfl⟩
  · simp [hr] at hr'
  · simp [hf] at hnone
  · obtain ⟨rsp, hrsp⟩ := runWord_responses hw
    obtain ⟨_, hflight, _⟩ := runWord_frame hw
    exact .inl ⟨t, rsp, ht, hflight, hrsp.trans (by rw [State.beginCompletion_responses])⟩
  · obtain rfl : f = f' := by simpa [hf] using hf'
    have hroom : s.hasRoom = true := hs.flight (by simp [hf])
    have hlater : ¬latencyBound s.cfg f.word ≤ f.age + 1 := fun hle => by simp [State.completes, hroom, hle] at hc
    exact .inr ⟨Nat.lt_of_not_le hlater, ht⟩

/-- A command in flight below its latency bound is answered within the edges left to the bound, if none of them is a reset
edge (R148). -/
theorem run_answers_inFlight (n : Nat) {s : State} {f : Flight} (hs : Inv s) (hf : s.inFlight = some f)
    (hage : f.age < latencyBound s.cfg f.word) (hn : latencyBound s.cfg f.word ≤ f.age + n)
    (hscript : ∀ e ∈ s.script.take n, e.rst = false) :
    ∃ k t r, 1 ≤ k ∧ k ≤ n ∧ Host.Core.run Sys2Proof.core k s = .next t ∧ t.inFlight = none ∧
      t.responses = s.responses ++ [r] := by
  induction n generalizing s f with
  | zero => omega
  | succ n ih =>
    rcases step_answers_or_waits hs (State.rst_of_take_script hscript) hf with ⟨t, r, ht, hnone, hrsp⟩ | ⟨hlater, hu⟩
    · exact ⟨1, t, r, le_rfl, by omega, run_succ_of_step ht 0, hnone, hrsp⟩
    · have hcfg : (s.keepInFlight f).cfg = s.cfg := step_keeps_cfg hu
      have hscript' : ∀ e ∈ (s.keepInFlight f).script.take n, e.rst = false := fun e he =>
        hscript e (List.mem_of_mem_tail (by rwa [List.tail_take_eq_take_tail, Nat.add_sub_cancel, ← step_script hu]))
      obtain ⟨k, t, r, _, hk, hrun, hnone, hrsp⟩ := ih (invariantIsKeptByEveryStep s _ hs hu) (s.keepInFlight_inFlight f)
        (by rw [hcfg]; exact hlater) (by rw [hcfg]; show latencyBound s.cfg f.word ≤ f.age + 1 + n; omega) hscript'
      exact ⟨k + 1, t, r, by omega, by omega, (run_succ_of_step hu k).trans hrun, hnone,
        hrsp.trans (by rw [State.keepInFlight_responses])⟩

/-! ### The commands that follow a BUILD (R144) -/

/-- A BUILD with the numbers of R7: each entry of the table it writes is 8 times an unscaled step in 1..255, the one the
BUILD's rule gives (R90, R95). -/
theorem exec_build_unscaled {i : Instr} (hi : IsBuild i) {s : State} (hn : s.cfg.numbers = Config.qtb1) (idx : Index) :
    ∃ (tbl : Table StepBits) (k : Nat), exec i s = .next ((s.writeTable tbl).respond noResult) ∧
      tbl[idx].toNat = 8 * k ∧ 1 ≤ k ∧ k ≤ 255 ∧
      (∀ c q, i = .buildDefault c q →
        (k : Int) = newval Config.qtb1 (s.refByte c idx).toNat (scale (clampQ Config.qtb1 q))) ∧
      (i = .buildCustom → k = max 1 s.custom[idx].toNat) := by
  rcases hi with ⟨c, q, rfl⟩ | rfl
  · obtain ⟨tbl, hexec, hentries⟩ := exec_buildDefault_entries c q s
    obtain ⟨hlo, hhi⟩ := newval_range (s.refByte c idx).toNat (scale (clampQ Config.qtb1 q))
    obtain ⟨k, hk⟩ := Int.eq_ofNat_of_zero_le (zero_le_one.trans hlo)
    have hentry := hentries hn idx
    refine ⟨tbl, k, hexec, by omega, by omega, by omega, fun c' q' heq => ?_, nofun⟩
    obtain ⟨rfl, rfl⟩ := Instr.buildDefault.inj heq
    exact hk.symm
  · obtain ⟨tbl, hexec, hentries⟩ := exec_buildCustom_entries s
    have hbyte := s.custom[idx].isLt
    exact ⟨tbl, _, hexec, hentries hn idx, by omega, by omega, nofun, fun _ => rfl⟩

/-- QUANTIZE after a BUILD divides by the step it built (R105). -/
theorem exec_quantize_of_entry {s : State} {tbl : Table StepBits} {idx : Index} {k : Nat} (hk : tbl[idx].toNat = 8 * k)
    (hpos : 1 ≤ k) (x : Int) :
    exec (.quantize idx x) ((s.writeTable tbl).respond noResult) =
      .next (((s.writeTable tbl).respond noResult).answered
        ((BitVec.ofInt 16 (roundedQuotient x (8 * k : Nat))).setWidth 32)) := by
  have hne : tbl[idx] ≠ 0#11 := by
    intro h0
    rw [h0] at hk
    simp at hk
    omega
  rw [exec_quantize_answered (s := (s.writeTable tbl).respond noResult) rfl hne, State.respond_steps,
    State.writeTable_steps, hk, responseWord_ok]

end Sys2Proof.Machine

open Sys2Proof Sys2Proof.Machine

/-- Settles O41: the channels are after the edge what the transfers leave, and a side whose transfer did not happen still
holds what it presents. -/
theorem transfersHappenExactlyOnValidAndReady : Obligations.TransfersHappenExactlyOnValidAndReady := by
  intro s t hr h
  obtain ⟨hstream, hheld, htaken, l, hbuf⟩ := step_channels hr h
  rw [← Bool.and_eq_true, ← Bool.and_eq_true, hstream, htaken]
  refine ⟨⟨State.transfer_of_accepts, fun hno => ?_⟩, State.transfer_of_takes, fun hno => ?_⟩
  · have hacc : s.accepts = false := Bool.eq_false_iff.mpr hno
    have hkept : s.transfer.stream = s.stream := by simp [hacc]
    exact ⟨hkept, fun hvalid => State.cmdData_of_held (by simp [hheld, hacc, hvalid]) (hstream.trans hkept) hvalid⟩
  · have htakes : s.takes = false := Bool.eq_false_iff.mpr hno
    have hkept : s.transfer.rspBuf = s.rspBuf := by simp [htakes]
    exact ⟨by simp [htakes], fun hvalid hr' => State.rspData_of_append (hkept ▸ hbuf) hr' hvalid⟩

/-- Settles O42: the bound is part of the invariant, a full buffer has no room, and an edge only adds responses at the
end. -/
theorem fullResponseBufferAcceptsNoCommand : Obligations.FullResponseBufferAcceptsNoCommand := by
  refine fun s t hs h => ⟨step_keeps_buffer_bound hs.buffer h, fun hfull => ?_, fun hr => step_responses_grow hr h⟩
  have hready : s.cmdReady = false := by simp [State.cmdReady, State.hasRoom, hfull]
  exact ⟨hready, step_keeps_stream (by simp [State.accepts, hready]) h⟩

/-- Settles O45: a command accepted has its whole latency before it, and it is answered at the latest at the edge at which
its age reaches the bound. -/
theorem commandInFlightIsAnsweredWithinItsLatency : Obligations.CommandInFlightIsAnsweredWithinItsLatency := by
  refine ⟨fun s t f => step_accepts_age_zero, fun s f bound hs hf hage hbuild hop hscript => ?_⟩
  have hbound : bound = latencyBound s.cfg f.word := by
    by_cases h : ∃ i, decode f.word = .ok i ∧ IsBuild i
    · have ⟨i, hd, hi⟩ := h
      rw [hbuild h, latencyBound_of_isBuild s.cfg hd hi]
    · rw [hop h, latencyBound_of_not_isBuild s.cfg h]
  have hpos := one_le_latencyBound hs.cfg f.word
  exact run_answers_inFlight bound hs hf (by omega) (by omega) hscript

/-- Settles O53: each edge takes off the work what moves at it, at a fair one something moves, and a full buffer leaves no
room for a command in flight. -/
theorem everyFairEdgeMakesProgress : Obligations.EveryFairEdgeMakesProgress := by
  intro s t hs hr h
  have hwork := step_work hr h
  refine ⟨by omega, fun hoffer hready hfinish => step_work_lt_of_fair_edge hs hr hoffer hready hfinish h,
    fun hfull => ⟨?_, ?_⟩⟩
  · by_contra hf
    have hroom := hs.flight hf
    simp [hfull] at hroom
  · simpa [State.rspValid, hr] using State.rspBuf_ne_nil_of_full hs.cfg hfull

/-- Settles O36: each BUILD writes 8 times the unscaled step of its rule, from the state before it, and GET and QUANTIZE
read what it wrote. -/
theorem commandsSeeTheStateTheEarlierOnesLeft : Obligations.CommandsSeeTheStateTheEarlierOnesLeft := by
  refine fun s hn => ⟨fun idx byte => ?_, fun i idx x hi _ => ?_⟩
  · obtain ⟨tbl, hexec, hentries⟩ := exec_buildCustom_entries ((s.writeCustom idx byte).respond noResult)
    have hentry : tbl[idx].toNat = 8 * max 1 byte.toNat := by simpa using hentries hn idx
    exact ⟨_, _, exec_loadCustom idx byte s, hexec, hentry, exec_get_of_entry hn hentry⟩
  · obtain ⟨tbl, k, hexec, hentry, hlo, hhi, hdefault, hcustom⟩ := exec_build_unscaled hi hn idx
    refine ⟨_, hexec, k, hlo, hhi, hdefault, hcustom, exec_get_of_entry hn hentry, ?_⟩
    rw [exec_quantize_of_entry hentry hlo, roundedQuotient_eq, quotientMagnitude]

/-- Settles O39: the reset edge, a field each; both pins ask for `rst = 0`. -/
theorem resetEdgeClearsAndDiscards : Obligations.ResetEdgeClearsAndDiscards := by
  intro s hr
  exact ⟨by simp [State.cmdReady, hr], by simp [State.rspValid, hr], s.resetEdge, step_of_rst hr, rfl, by simp, rfl, rfl,
    s.resetEdge_cfg⟩

/-- Settles O40: the reset edge keeps the host's side, and a host whose command was not accepted holds it. -/
theorem resetEdgeMovesNothingOnTheChannels : Obligations.ResetEdgeMovesNothingOnTheChannels := by
  intro s t hr h
  rw [step_of_rst hr, Host.Outcome.next.injEq] at h
  subst h
  have hacc : s.accepts = false := by simp [State.accepts, State.cmdReady, hr]
  exact ⟨s.resetEdge_stream, s.resetEdge_taken,
    fun hvalid => State.cmdData_of_held (by simp [hvalid, hacc]) s.resetEdge_stream hvalid⟩

/-- Settles O49: the parameters are legal ones, and with nothing built, in flight or answered the rest holds of nothing. -/
theorem invariantHoldsAtReset : Obligations.InvariantHoldsAtReset :=
  { cfg := Tests.default_wf
    table := nofun
    buffer := Nat.zero_le _
    flight := fun hf => absurd rfl hf
    responses := nofun }

end
